-- ==== Sys2Proof/Word.lean ====
section
/-! DEFINITION. The word types of the block: bytes, the 32-bit input record, 7-bit device addresses, identifiers. -/

namespace Sys2Proof

/-- A byte: the address byte, a data byte, a status code, a control word (R8). -/
abbrev Byte := BitVec 8

/-- The 32-bit input record (R104). -/
abbrev Record := BitVec 32

/-- A 7-bit device address (R7). -/
abbrev BusAddr := BitVec 7

/-- A request identifier, drawn from an unbounded set (R11). -/
abbrev ReqId := Nat

/-- A device identifier, drawn from an unbounded set (R11). -/
abbrev DevId := Nat

end Sys2Proof
end

