-- ==== Sys2Proof/Syntax.lean ====
section
/-! DEFINITION. The instructions (one constructor per row of the opcode table), the commands, the status names, and what may
stand at the block's ports: packets that spell an instruction, directives of the host, and the lines of a script. -/

namespace Sys2Proof

/-- The direction of a transfer request (R25, R26). -/
inductive Direction where
  | write
  | read
deriving DecidableEq, Repr

/-- The ten recognised status names (R94). -/
inductive StatusName where
  | start
  | repeatStart
  | addrAckW
  | addrNackW
  | dataAckW
  | dataNackW
  | addrAckR
  | addrNackR
  | dataAckR
  | dataNackR
deriving DecidableEq, Repr

/-- Every status name, in the order of R94. -/
def StatusName.all : List StatusName :=
  [.start, .repeatStart, .addrAckW, .addrNackW, .dataAckW, .dataNackW, .addrAckR, .addrNackR, .dataAckR, .dataNackR]

/-- The eight commands the block writes to the control register (R40, R260). -/
inductive Command where
  | start
  | stop
  | stopStart
  | ack
  | nack
  | transmit
  | stopRx
  | stopStartRx
deriving DecidableEq, Repr

/-- Every command, in the order of the opcode table. -/
def Command.all : List Command :=
  [.start, .stop, .stopStart, .ack, .nack, .transmit, .stopRx, .stopStartRx]

/-- The peripheral's registers (R35 to R39, R68). -/
inductive PeriphReg where
  | divider
  | status
  | ownAddress
  | data
  | control
deriving DecidableEq, Repr

/-- One constructor per row of the opcode table (R101). An event carries the raw status byte S and the data-register byte D
(R90); the row's bits fix only the masked key of S, so both bytes are operands. -/
inductive Instr where
  /-- INIT, target SCL frequency in Hz (R130). -/
  | init (target : Nat)
  /-- SUBMIT_W (R154). -/
  | submitW (r : ReqId)
  /-- SUBMIT_R (R155). -/
  | submitR (r : ReqId)
  /-- EV_START (R172). -/
  | evStart (st d : Byte)
  /-- EV_REPEAT_START (R174). -/
  | evRepeatStart (st d : Byte)
  /-- EV_ADDR_ACK_W (R190). -/
  | evAddrAckW (st d : Byte)
  /-- EV_ADDR_NACK_W (R192). -/
  | evAddrNackW (st d : Byte)
  /-- EV_DATA_ACK_W (R194). -/
  | evDataAckW (st d : Byte)
  /-- EV_DATA_NACK_W (R195). -/
  | evDataNackW (st d : Byte)
  /-- EV_ADDR_ACK_R (R210). -/
  | evAddrAckR (st d : Byte)
  /-- EV_ADDR_NACK_R (R212). -/
  | evAddrNackR (st d : Byte)
  /-- EV_DATA_ACK_R (R214). -/
  | evDataAckR (st d : Byte)
  /-- EV_DATA_NACK_R (R216). -/
  | evDataNackR (st d : Byte)
  /-- EV_OTHER, any status with no name (R239). -/
  | evOther (st d : Byte)
  /-- START, `send_start()` (R263). -/
  | start
  /-- STOP, `send_stop()` (R264). -/
  | stop
  /-- STOP_START, `send_stop_then_start()` (R265). -/
  | stopStart
  /-- ACK, `send_ack()` (R266). -/
  | ack
  /-- NACK, `send_nack()` (R267). -/
  | nack
  /-- TRANSMIT, `send_transmit()` (R268). -/
  | transmit
  /-- STOP_RX, the receive-mode STOP (R269). -/
  | stopRx
  /-- STOP_START_RX, the receive-mode STOP-then-START (R270). -/
  | stopStartRx
  /-- LOAD, `load_data_register(byte)` (R271). -/
  | load (b : Byte)
  /-- CFG, the write of the divider and the prescaler (R134, R39). -/
  | cfg (divider : Byte) (prescaler : Nat)
deriving DecidableEq, Repr

/-- The eleven event instructions: the responses to the peripheral (R101). -/
def Instr.isEvent : Instr → Bool
  | .evStart _ _ | .evRepeatStart _ _ | .evAddrAckW _ _ | .evAddrNackW _ _ | .evDataAckW _ _ | .evDataNackW _ _
  | .evAddrAckR _ _ | .evAddrNackR _ _ | .evDataAckR _ _ | .evDataNackR _ _ | .evOther _ _ => true
  | .init _ | .submitW _ | .submitR _ | .start | .stop | .stopStart | .ack | .nack | .transmit | .stopRx | .stopStartRx
  | .load _ | .cfg _ _ => false

/-- The inputs of the block: INIT, SUBMIT and the events (R101). The other rows are its own output actions. -/
def Instr.isInput : Instr → Bool
  | .init _ | .submitW _ | .submitR _ => true
  | i => i.isEvent

/-- What spells an instruction at a port. The first four are the inputs of R90, packed into a record (R104) or not; the last
three are the block's own register writes (R260), which as steps of their own are the model's convention (log entry 15). -/
inductive Packet where
  /-- An input packed into a 32-bit record (R104). -/
  | record (w : Record)
  /-- INIT(target), not packed: no limit on the target (R104). -/
  | init (target : Nat)
  /-- SUBMIT(r, dir), not packed: no limit on the identifier (R104). -/
  | submit (r : ReqId) (dir : Direction)
  /-- EVENT(S, D), not packed (R90). -/
  | event (st d : Byte)
  /-- A word written to the control register (R100). -/
  | controlWrite (w : Byte)
  /-- A byte written to the data register (R271). -/
  | dataWrite (b : Byte)
  /-- The divider and prescaler values: the divider in bits 7..0, the prescaler value in bits 15..8 (log entry 16). -/
  | cfgWrite (w : BitVec 16)
deriving DecidableEq, Repr

/-- A packet that is one of the block's own register writes, not an input of R90. -/
def Packet.isRegisterWrite : Packet → Bool
  | .controlWrite _ | .dataWrite _ | .cfgWrite _ => true
  | .record _ | .init _ | .submit _ _ | .event _ _ => false

/-- What the host does to the records and buffers outside the block's inputs (R44, R71, R105). -/
inductive Directive where
  /-- `NEW_DEVICE(d, addr)` (R44). -/
  | newDevice (d : DevId) (addr : BusAddr)
  /-- `NEW_REQUEST(r, d, buf, len, remaining, has_cb)`, `len` being the number of bytes of `buf` (R44, R106). -/
  | newRequest (r : ReqId) (d : DevId) (buf : List Byte) (remaining : Nat) (cb : Bool)
  /-- The host writes one byte of request `r`'s buffer (R71). -/
  | bufWrite (r : ReqId) (offset : Nat) (v : Byte)
deriving DecidableEq, Repr

/-- One thing the outside world does to the machine. -/
inductive Input where
  | packet (p : Packet)
  | directive (d : Directive)
deriving DecidableEq, Repr

/-- An input that makes the machine run one of its own register writes as a step (log entry 15). -/
def Input.isRegisterWrite : Input → Bool
  | .packet p => p.isRegisterWrite
  | .directive _ => false

/-- One line of the spec's script notation (R106, R107). `submit <r> w` and `submit <r> r` are spellings of `submitW` and
`submitR`. -/
inductive ScriptLine where
  | dev (d : DevId) (addr : BusAddr)
  | req (r : ReqId) (d : DevId) (buf : List Byte) (remaining : Nat) (cb : Bool)
  | init (hz : Nat)
  | submitW (r : ReqId)
  | submitR (r : ReqId)
  | ev (st : Byte) (d : Byte := 0)
  | evName (n : StatusName) (d : Byte := 0)
deriving DecidableEq, Repr

end Sys2Proof
end

