-- ==== Sys2Proof/Config.lean ====
section
/-! DEFINITION. What an implementation fixes (the parameters of R10 that have a default), and the free values: constants with no
body. The two OPEN parameters, CORE_CLOCK and REM_WIDTH, stand in State (log entries 7, 8). -/

namespace Sys2Proof

/-- The status part of a peripheral binding: `STATUS_MASK` and `STATUS_CODE` (R10). -/
structure Config.Binding where
  statusMask : Byte
  statusCode : StatusName → Byte

/-- The two conditions of R10 on a binding: every code lies within the mask, and no two names share one. -/
def Config.Binding.ok (b : Config.Binding) : Bool :=
  StatusName.all.all fun n =>
    (b.statusCode n &&& b.statusMask == b.statusCode n) &&
    StatusName.all.all fun m => b.statusCode n == b.statusCode m → n == m

/-- Default `STATUS_CODE` (R97). PRESUMED: the AVR TWI master codes (log entry 9). -/
def Config.defaultStatusCode : StatusName → Byte
  | .start => 0x08
  | .repeatStart => 0x10
  | .addrAckW => 0x18
  | .addrNackW => 0x20
  | .dataAckW => 0x28
  | .dataNackW => 0x30
  | .addrAckR => 0x40
  | .addrNackR => 0x48
  | .dataAckR => 0x50
  | .dataNackR => 0x58

/-- The binding of this machine: the default of R10, `STATUS_MASK = 0xF8` (R93, log entry 9). -/
def Config.binding : Config.Binding where
  statusMask := 0xF8
  statusCode := Config.defaultStatusCode

/-- Default `CTRL_WORD` (R261). PRESUMED: AVR TWCR usage (log entry 10). -/
def Config.ctrlWord : Command → Byte
  | .start => 0xA5
  | .stop => 0x95
  | .stopStart => 0xB5
  | .ack => 0xC5
  | .nack => 0x85
  | .transmit => 0x85
  | .stopRx => 0x95
  | .stopStartRx => 0xB5

/-- `QUEUE_CAP`, by default unbounded (R10, R24). -/
def Config.queueCap : Option Nat := none

/-- `PRESCALER`, 1 in the baseline design (R10, R132). -/
def Config.prescaler : Nat := 1

/-- `DIV_MAX`, by default 255 (R10). PRESUMED: an 8-bit divider register (log entry 13). -/
def Config.divMax : Nat := 255

/-- FREE VALUE: whether the n-th receive-store draw stores the received byte (R217, log entry 6). -/
opaque Config.storeDraw : Nat → Bool

/-- FREE VALUE: the select of a prescaler value that R39 gives no select for (log entry 14). -/
opaque Config.unlistedSelect : Nat → BitVec 2

/-- The prescaler select, the prescaler value being `4^select` (R39). PRESUMED (log entry 14). -/
def Config.prescalerSelect (p : Nat) : BitVec 2 :=
  if p = 1 then 0 else if p = 4 then 1 else if p = 16 then 2 else if p = 64 then 3 else Config.unlistedSelect p

/-- The registers' default addresses (R68): informative, no definition of the machine reads them. -/
def Config.registerAddress : PeriphReg → Nat
  | .divider => 0xB8
  | .status => 0xB9
  | .ownAddress => 0xBA
  | .data => 0xBB
  | .control => 0xBC

/-- What the peripheral was last told to do, as the rows of R274 tell it. -/
inductive Config.LastCommand where
  | start
  | slaWrite
  | slaRead
  | dataByte
  | ack
  | nack
  | stopped
deriving DecidableEq, Repr

/-- The masked status the default peripheral may report next (R274): informative, the block relies on none of it. Bus error
(0x00) may follow any command that is followed by an event. -/
def Config.defaultReports : Config.LastCommand → List Byte
  | .start => [0x08, 0x10, 0x38, 0x00]
  | .slaWrite => [0x18, 0x20, 0x38, 0x00]
  | .slaRead => [0x40, 0x48, 0x38, 0x00]
  | .dataByte => [0x28, 0x30, 0x38, 0x00]
  | .ack => [0x50, 0x38, 0x00]
  | .nack => [0x58, 0x38, 0x00]
  | .stopped => []

end Sys2Proof
end

