-- ==== Sys2Proof/WellFormed.lean ====
section
/-! DEFINITION. Which terms of Instr stand for a word of the opcode table: the operand ranges of the record (R104) and of
the model's CFG word (log entry 16), and the status byte each event row asks for (R96, R101). -/

namespace Sys2Proof

/-- The row of the status byte `st` has the name `n` (R91, R96). -/
def statusIs (n : StatusName) (st : Byte) : Bool :=
  st &&& Config.binding.statusMask == Config.binding.statusCode n

/-- The status byte `st` has no name: it decodes to OTHER (R96). -/
def statusIsOther (st : Byte) : Bool :=
  StatusName.all.all fun n => !statusIs n st

/-- The term is one the encodings can spell. -/
def Instr.wf : Instr → Bool
  | .init target => decide (target < 2 ^ 30)
  | .submitW r => decide (r < 2 ^ 24)
  | .submitR r => decide (r < 2 ^ 24)
  | .evStart st _ => statusIs .start st
  | .evRepeatStart st _ => statusIs .repeatStart st
  | .evAddrAckW st _ => statusIs .addrAckW st
  | .evAddrNackW st _ => statusIs .addrNackW st
  | .evDataAckW st _ => statusIs .dataAckW st
  | .evDataNackW st _ => statusIs .dataNackW st
  | .evAddrAckR st _ => statusIs .addrAckR st
  | .evAddrNackR st _ => statusIs .addrNackR st
  | .evDataAckR st _ => statusIs .dataAckR st
  | .evDataNackR st _ => statusIs .dataNackR st
  | .evOther st _ => statusIsOther st
  | .start | .stop | .stopStart | .ack | .nack | .transmit | .stopRx | .stopStartRx => true
  | .load _ => true
  | .cfg _ prescaler => decide (prescaler < 256)

/-- A directive the host can spell with a `REM_WIDTH` of `width`: its `remaining` lies in `[0, 2^REM_WIDTH - 1]` (R9, R25, R44). -/
def Directive.fits (width : Nat) : Directive → Bool
  | .newDevice _ _ => true
  | .newRequest _ _ _ remaining _ => decide (remaining < 2 ^ width)
  | .bufWrite _ _ _ => true

end Sys2Proof
end

