-- ==== Sys2Proof/Decode.lean ====
section
/-! DEFINITION. Reading an instruction from what stands at a port: the status decode (R96), the record decoder (R104, R109,
R110), the control words (R261); the script forms (R106, R107); and after them the encoder. -/

namespace Sys2Proof

/-- Why a packet spells no instruction. The first two are the record decoder's refusals (R110). -/
inductive DecodeError where
  /-- A record of kind 0b11. -/
  | reservedKind
  /-- A record whose reserved bits are not all zero. -/
  | reservedBits
  /-- A control word that is no command's `CTRL_WORD` (log entry 15). -/
  | noCommand
deriving DecidableEq, Repr

/-- The decode key of a raw status byte (R91). -/
def statusKey (b : Config.Binding) (st : Byte) : Byte := st &&& b.statusMask

/-- The name of a raw status byte under a binding; `none` is OTHER (R96). -/
def decodeStatusWith (b : Config.Binding) (st : Byte) : Option StatusName :=
  StatusName.all.find? fun n => b.statusCode n == statusKey b st

/-- The status decode of this machine (R96, R97). -/
def decodeStatus (st : Byte) : Option StatusName := decodeStatusWith Config.binding st

/-- The event instruction a decoded status selects (R101, R171). -/
def eventInstr (n : Option StatusName) (st d : Byte) : Instr :=
  match n with
  | some .start => .evStart st d
  | some .repeatStart => .evRepeatStart st d
  | some .addrAckW => .evAddrAckW st d
  | some .addrNackW => .evAddrNackW st d
  | some .dataAckW => .evDataAckW st d
  | some .dataNackW => .evDataNackW st d
  | some .addrAckR => .evAddrAckR st d
  | some .addrNackR => .evAddrNackR st d
  | some .dataAckR => .evDataAckR st d
  | some .dataNackR => .evDataNackR st d
  | none => .evOther st d

/-- EVENT(S, D): the arm is selected by the decode key alone (R91, R103). -/
def decodeEvent (st d : Byte) : Instr := eventInstr (decodeStatus st) st d

/-- SUBMIT(r, dir) (R101). -/
def submitInstr (r : ReqId) : Direction → Instr
  | .write => .submitW r
  | .read => .submitR r

/-- The fields of the input record (R104). -/
def Record.kind (w : Record) : BitVec 2 := w.extractLsb' 30 2
def Record.eventReserved (w : Record) : BitVec 14 := w.extractLsb' 16 14
def Record.eventData (w : Record) : Byte := w.extractLsb' 8 8
def Record.eventStatus (w : Record) : Byte := w.extractLsb' 0 8
def Record.submitDir (w : Record) : BitVec 1 := w.extractLsb' 29 1
def Record.submitReserved (w : Record) : BitVec 5 := w.extractLsb' 24 5
def Record.submitId (w : Record) : BitVec 24 := w.extractLsb' 0 24
def Record.initTarget (w : Record) : BitVec 30 := w.extractLsb' 0 30

/-- The record decoder, total on every 32-bit word (R104, R109, R110). -/
def decodeRecord (w : Record) : Except DecodeError Instr :=
  if Record.kind w = 0b00#2 then
    if Record.eventReserved w = 0 then .ok (decodeEvent (Record.eventStatus w) (Record.eventData w))
    else .error .reservedBits
  else if Record.kind w = 0b01#2 then
    if Record.submitReserved w = 0 then
      .ok (submitInstr (Record.submitId w).toNat (if Record.submitDir w = 1#1 then .read else .write))
    else .error .reservedBits
  else if Record.kind w = 0b10#2 then .ok (.init (Record.initTarget w).toNat)
  else .error .reservedKind

/-- The instruction of a command row (R263 to R270). -/
def Command.instr : Command → Instr
  | .start => .start
  | .stop => .stop
  | .stopStart => .stopStart
  | .ack => .ack
  | .nack => .nack
  | .transmit => .transmit
  | .stopRx => .stopRx
  | .stopStartRx => .stopStartRx

/-- The command of a control word. Words coincide (R261): of two commands with one word the first in the table's order is
taken (log entry 10). -/
def decodeCommand (w : Byte) : Option Command :=
  Command.all.find? fun c => Config.ctrlWord c == w

/-- The instruction a packet spells, total on every packet. -/
def decodePacket : Packet → Except DecodeError Instr
  | .record w => decodeRecord w
  | .init target => .ok (.init target)
  | .submit r dir => .ok (submitInstr r dir)
  | .event st d => .ok (decodeEvent st d)
  | .controlWrite w =>
    match decodeCommand w with
    | some c => .ok c.instr
    | none => .error .noCommand
  | .dataWrite b => .ok (.load b)
  | .cfgWrite w => .ok (.cfg (w.extractLsb' 0 8) (w.extractLsb' 8 8).toNat)

/-- The packet an opcode-table word of `nbits` bits stands for: 32 bits are an input record; 16 bits the CFG word; 8 bits a
control word where the word is a command's, else a data-register write (log entry 16). -/
def tablePacket (nbits w : Nat) : Packet :=
  if nbits ≤ 8 then
    match decodeCommand (BitVec.ofNat 8 w) with
    | some _ => .controlWrite (BitVec.ofNat 8 w)
    | none => .dataWrite (BitVec.ofNat 8 w)
  else if nbits ≤ 16 then .cfgWrite (BitVec.ofNat 16 w)
  else .record (BitVec.ofNat 32 w)

/-- The instruction the decoder reads from an opcode-table word. -/
def decodeTableWord (nbits w : Nat) : Option Instr :=
  match decodePacket (tablePacket nbits w) with
  | .ok i => some i
  | .error _ => none

/-- A script line as the input it stands for (R106, R107). -/
def ScriptLine.toInput : ScriptLine → Input
  | .dev d addr => .directive (.newDevice d addr)
  | .req r d buf remaining cb => .directive (.newRequest r d buf remaining cb)
  | .init hz => .packet (.init hz)
  | .submitW r => .packet (.submit r .write)
  | .submitR r => .packet (.submit r .read)
  | .ev st d => .packet (.event st d)
  | .evName n d => .packet (.event (Config.binding.statusCode n) d)

/-- The record of an event (R104): kind 0b00, reserved bits zero, D, S. -/
def eventRecord (st d : Byte) : Record := 0#16 ++ d ++ st

/-- The record of a SUBMIT (R104): kind 0b01, the direction bit, reserved bits zero, the identifier. -/
def submitRecord (dirBit : BitVec 1) (r : ReqId) : Record := 0b01#2 ++ dirBit ++ 0#5 ++ BitVec.ofNat 24 r

/-- The record of an INIT (R104): kind 0b10, the target. -/
def initRecord (target : Nat) : Record := 0b10#2 ++ BitVec.ofNat 30 target

/-- The packet that spells an instruction: inputs as records (R104), commands as their control words (R261), LOAD as its byte
(R271), CFG as the model's word (log entry 16). -/
def encode : Instr → Packet
  | .init target => .record (initRecord target)
  | .submitW r => .record (submitRecord 0 r)
  | .submitR r => .record (submitRecord 1 r)
  | .evStart st d => .record (eventRecord st d)
  | .evRepeatStart st d => .record (eventRecord st d)
  | .evAddrAckW st d => .record (eventRecord st d)
  | .evAddrNackW st d => .record (eventRecord st d)
  | .evDataAckW st d => .record (eventRecord st d)
  | .evDataNackW st d => .record (eventRecord st d)
  | .evAddrAckR st d => .record (eventRecord st d)
  | .evAddrNackR st d => .record (eventRecord st d)
  | .evDataAckR st d => .record (eventRecord st d)
  | .evDataNackR st d => .record (eventRecord st d)
  | .evOther st d => .record (eventRecord st d)
  | .start => .controlWrite (Config.ctrlWord .start)
  | .stop => .controlWrite (Config.ctrlWord .stop)
  | .stopStart => .controlWrite (Config.ctrlWord .stopStart)
  | .ack => .controlWrite (Config.ctrlWord .ack)
  | .nack => .controlWrite (Config.ctrlWord .nack)
  | .transmit => .controlWrite (Config.ctrlWord .transmit)
  | .stopRx => .controlWrite (Config.ctrlWord .stopRx)
  | .stopStartRx => .controlWrite (Config.ctrlWord .stopStartRx)
  | .load b => .dataWrite b
  | .cfg divider prescaler => .cfgWrite (BitVec.ofNat 8 prescaler ++ divider)

end Sys2Proof
end

