-- ==== Sys2Proof/Machine/State.lean ====
section
/-! DEFINITION. The state of the machine as plain data, the reasons a step can stop, and the state after reset (R20, R42). -/

namespace Sys2Proof.Machine

/-- Bus State (R21). -/
inductive BusState where
  | idle
  | active
deriving DecidableEq, Repr

/-- The lifecycle of a request (R28). -/
inductive Life where
  | fresh
  | queued
  | current
  | released
deriving DecidableEq, Repr

/-- The outcome tags: the error classes of R300. -/
inductive Tag where
  | ok
  | configError
  | addrNack
  | dataNack
  | unexpected
deriving DecidableEq, Repr

/-- One caller buffer (R60): its length `LEN`, and its bytes by offset. The cells' offsets rise strictly and stay below `len`,
and no cell holds zero: an offset below `len` that no cell names reads as zero (log entry 22). -/
structure Memory where
  len : Nat
  cells : List Host.Cell
deriving DecidableEq, Repr

/-- A request record (R25). -/
structure Request where
  dir : Direction
  device : DevId
  buf : Memory
  cursor : Nat
  remaining : Nat
  hasCb : Bool
  life : Life
deriving DecidableEq, Repr

/-- A device record (R30). -/
structure Device where
  addr : BusAddr
deriving DecidableEq, Repr

/-- The two derived register values of Bus Configuration (R32). -/
structure BusConfig where
  divider : Nat
  prescaler : Nat
deriving DecidableEq, Repr

/-- The output actions (R40). -/
inductive Action where
  | cmd (c : Command)
  | load (b : Byte)
  | callback (r : ReqId) (payload : Option Byte)
  | release (r : ReqId) (tag : Tag)
  | cfg (divider prescaler : Nat)
deriving DecidableEq, Repr

/-- What an INIT returns to its caller: `Ok(s.config)` or `Error(E)` (R16, R130, R135). -/
inductive InitResult where
  | ok (divider prescaler : Nat)
  | error (e : Tag)
deriving DecidableEq, Repr

/-- The fault reasons of R302, and one of the model's own. The step that raises one answers a NEXT state that is the state
before it with the mark `fault` set (R303); every step from a state with the mark answers `.fault`, which is the machine's
stop. All are safe: the machine stops where the hardware would do something. -/
inductive Fault where
  /-- An event with no current request (R176): raised by every event. -/
  | spuriousEvent
  /-- A data ACK with `remaining = 0`: raised by EV_DATA_ACK_W (R194) and EV_DATA_ACK_R (R214). -/
  | remUnderflow
  /-- A transmit read at `cursor ≥ LEN`: raised by EV_ADDR_ACK_W (R190) and EV_DATA_ACK_W (R194). -/
  | bufBounds
  /-- A SUBMIT with `config = none` (R150). -/
  | submitBeforeInit
  /-- A SUBMIT of a request that is not Fresh, or of an unknown one (R150). -/
  | reqNotFresh
  /-- An INIT after a successful INIT (R131). -/
  | reinit
  /-- A SUBMIT on a full bounded queue (R24); never raised with the default `QUEUE_CAP`. -/
  | queueOverflow
  /-- The model's own: the current request, or its device, has no record. Raised by events, in states that no run from reset
  reaches (R44; log entry 18). -/
  | danglingRecord
deriving DecidableEq, Repr

/-- The refusal reasons of R304. A refused input answers a NEXT state with the mark `refused` set (R46); every step from a
state with the mark answers `.refused`. Safe. -/
inductive RefuseReason where
  /-- A record of kind 0b11 (R110): set by a step that reads it. -/
  | reservedKind
  /-- A record with nonzero reserved bits (R110): set by a step that reads it. -/
  | reservedBits
  /-- A creation directive that reuses an identifier (R44). -/
  | idInUse
  /-- A NEW_REQUEST that names a missing device (R44). -/
  | noDevice
deriving DecidableEq, Repr

/-- Why a step is refused. All are safe: the machine stops. -/
inductive Refusal where
  /-- The instruction has no meaning yet: raised by a refused arm of exec only. -/
  | notModelled (mnemonic : String)
  /-- The state carries the mark `refused` (R46): raised by every step. -/
  | sticky (reason : RefuseReason)
  /-- A control word that is no command's: raised by a step that reads one; no input of the spec (log entry 15). -/
  | noCommand
  /-- A host write to a buffer that does not exist, or beyond its end: raised by the directive; the spec gives such a write no
  meaning (log entry 20). -/
  | hostWriteOutside
  /-- A NEW_REQUEST whose `remaining` is not a `REM_WIDTH`-bit number (R9, R25): raised by the directive; such a directive
  spells no request, and R304 names no reason for it (log entry 8). -/
  | countTooWide
deriving DecidableEq, Repr

/-- The state of the machine. The fields down to `refused` are the record `s` of R20. -/
structure State where
  /-- `s.bus_state` (R21). -/
  busState : BusState
  /-- `s.current` (R22). -/
  current : Option ReqId
  /-- `s.queue`, head first (R24). -/
  queue : List ReqId
  /-- `s.req`: the request records by identifier, identifiers rising (R25). -/
  reqs : List (Nat × Request)
  /-- `s.dev`: the device records by identifier, identifiers rising (R30). -/
  devs : List (Nat × Device)
  /-- `s.config` (R32). -/
  config : Option BusConfig
  /-- `s.armed` (R31). -/
  armed : Bool
  /-- `s.fault` (R33). -/
  fault : Option Fault
  /-- `s.refused` (R46). -/
  refused : Option RefuseReason
  /-- The control register: the last word the block wrote to it (R37, R261). -/
  controlReg : Byte
  /-- TWWC, the write-collision flag: bit 3 of the control register as it reads, which no write to that register touches, and so
  no part of `controlReg` (R37, R271, log entry 28). -/
  writeCollision : Bool
  /-- The status register: the status code, and the prescaler select in bits 1..0 (R36, R39). -/
  statusReg : Byte
  /-- The data register: the byte last loaded, or latched with an event (R38). -/
  dataReg : Byte
  /-- The bit-rate divider register (R39). -/
  dividerReg : Byte
  /-- The trace of the run so far, oldest action first (R40, log entry 5). -/
  trace : List Action
  /-- The model's own: `CORE_CLOCK` in Hz, an OPEN parameter of the machine; no step writes it (R10, log entry 7). -/
  coreClock : Nat
  /-- The model's own: `REM_WIDTH` in bits, an OPEN parameter of the machine, at least 1; no step writes it (R9, R10, log
  entry 8). -/
  remWidth : Nat
  /-- The model's own: what the last INIT returned (log entry 4). -/
  initResult : Option InitResult
  /-- The model's own: the inputs still to be delivered, next first (log entry 1). -/
  inputs : List Input
  /-- The model's own: how many receive-store draws have been taken (log entry 6). -/
  draws : Nat
deriving DecidableEq, Repr

/-- The machine right after reset (R42, R340). The peripheral registers hold the family's values (R342, log entries 11, 28);
the two OPEN parameters hold values on which no statement rests: `coreClock` that of the spec's vectors, `remWidth` one within
what the vectors ask for (log entries 7, 8). -/
def State.reset : State where
  busState := .idle
  current := none
  queue := []
  reqs := []
  devs := []
  config := none
  armed := false
  fault := none
  refused := none
  controlReg := 0x00
  writeCollision := false
  statusReg := 0xF8
  dataReg := 0xFF
  dividerReg := 0x00
  trace := []
  coreClock := 16000000
  remWidth := 32
  initResult := none
  inputs := []
  draws := 0

end Sys2Proof.Machine
end

