-- ==== Sys2Proof/Machine/Flags.lean ====
section
/-! DEFINITION. The block's Boolean facts (R34), the arming of a command (R262), the fields of the control and status registers
(R36, R37), and the numeric codes of tags and faults (R300, R302). -/

namespace Sys2Proof.Machine

/-- Whether a command obliges the peripheral to raise one more event: `ARMS(c)` (R262). -/
def arms : Command → Bool
  | .start | .stopStart | .stopStartRx | .transmit | .ack | .nack => true
  | .stop | .stopRx => false

/-- `bus_state = Active` (R34). -/
def State.isActive (s : State) : Bool := s.busState == .active

/-- `current ≠ none` (R34). -/
def State.hasCurrent (s : State) : Bool := s.current.isSome

/-- `s.config ≠ none` (R34). -/
def State.isConfigured (s : State) : Bool := s.config.isSome

/-- `s.fault ≠ none` (R34). -/
def State.isFaulted (s : State) : Bool := s.fault.isSome

/-- `s.refused ≠ none` (R34). -/
def State.isRefused (s : State) : Bool := s.refused.isSome

/-- The test `remaining_bytes > 0` of the data arms, computed afresh in each step (R34). -/
def Request.wantsMore (q : Request) : Bool := decide (0 < q.remaining)

/-- The control register's fields (R37). What bit 3 reads as is State.writeCollision: writes to it are ignored. -/
def twint (w : Byte) : Bool := w.getLsbD 7
def twea (w : Byte) : Bool := w.getLsbD 6
def twsta (w : Byte) : Bool := w.getLsbD 5
def twsto (w : Byte) : Bool := w.getLsbD 4
def twwc (w : Byte) : Bool := w.getLsbD 3
def twen (w : Byte) : Bool := w.getLsbD 2
def twie (w : Byte) : Bool := w.getLsbD 0

/-- The status register's fields (R36). -/
def statusField (st : Byte) : BitVec 5 := st.extractLsb' 3 5
def statusPrescaler (st : Byte) : BitVec 2 := st.extractLsb' 0 2

/-- The numeric codes of the outcome tags (R300). -/
def Tag.code : Tag → Nat
  | .ok => 0
  | .configError => 1
  | .addrNack => 2
  | .dataNack => 3
  | .unexpected => 4

/-- The numeric codes of the fault reasons (R302); 0 for the model's own. -/
def Fault.code : Fault → Nat
  | .danglingRecord => 0
  | .spuriousEvent => 1
  | .remUnderflow => 2
  | .bufBounds => 3
  | .submitBeforeInit => 4
  | .reqNotFresh => 5
  | .reinit => 6
  | .queueOverflow => 7

end Sys2Proof.Machine
end

