-- ==== Sys2Proof/Machine/Ops.lean ====
section
/-! DEFINITION. The named operations over tables, buffers, records, the trace and the registers; raising a fault and refusing
an input, each as one shared operation (R303, R304). -/

namespace Sys2Proof.Machine

/-! ### Tables: maps from identifiers or offsets, as lists with rising keys -/

/-- The entry under a key. -/
def Table.get {α : Type} : List (Nat × α) → Nat → Option α
  | [], _ => none
  | (k, v) :: t, x => if k = x then some v else Table.get t x

/-- The table with the entry under a key set, the keys staying in rising order. -/
def Table.put {α : Type} : List (Nat × α) → Nat → α → List (Nat × α)
  | [], x, v => [(x, v)]
  | (k, u) :: t, x, v =>
    if x < k then (x, v) :: (k, u) :: t else if x = k then (x, v) :: t else (k, u) :: Table.put t x v

/-- The table without its entries under a key. -/
def Table.erase {α : Type} (t : List (Nat × α)) (x : Nat) : List (Nat × α) := t.filter fun p => p.1 != x

/-- The keys rise strictly: equal tables are then equal data. -/
abbrev Table.Canonical {α : Type} (t : List (Nat × α)) : Prop := t.Pairwise fun p q => p.1 < q.1

/-! ### Caller buffers (R14, R60, R62, R65) -/

/-- What an offset below `LEN` that no cell names reads as (log entry 22). -/
def Memory.unlisted : Byte := 0

/-- `MemRead(buf, i, 1)`; `none` is the bound fault, `i ≥ LEN` (R14). -/
def Memory.read (m : Memory) (i : Nat) : Option Byte :=
  if i < m.len then some ((Table.get m.cells i).getD Memory.unlisted) else none

/-- `MemWrite(buf, i, 1, v)` at an offset below `LEN` (R14); a caller checks the bound. -/
def Memory.write (m : Memory) (i : Nat) (v : Byte) : Memory where
  len := m.len
  cells := if v = Memory.unlisted then Table.erase m.cells i else Table.put m.cells i v

/-- The cells of a list of bytes from an offset on. -/
def Memory.cellsFrom : Nat → List Byte → List Host.Cell
  | _, [] => []
  | i, b :: bs => if b = Memory.unlisted then Memory.cellsFrom (i + 1) bs else (i, b) :: Memory.cellsFrom (i + 1) bs

/-- The buffer that holds the given bytes (R44). -/
def Memory.ofBytes (bs : List Byte) : Memory where
  len := bs.length
  cells := Memory.cellsFrom 0 bs

/-- The canonical form: offsets rise strictly, lie below `LEN`, and no cell holds what an unlisted offset reads as. -/
abbrev Memory.wf (m : Memory) : Prop :=
  Table.Canonical m.cells ∧ ∀ c ∈ m.cells, c.1 < m.len ∧ c.2 ≠ Memory.unlisted

/-! ### Records (R13, R25, R30) -/

/-- `req[r]`. -/
def State.request (s : State) (r : ReqId) : Option Request := Table.get s.reqs r

/-- `dev[d]`. -/
def State.device (s : State) (d : DevId) : Option Device := Table.get s.devs d

/-- `req[r] <- q`. -/
def State.setRequest (s : State) (r : ReqId) (q : Request) : State := { s with reqs := Table.put s.reqs r q }

/-- `req[r].life <- l`; no effect where `r` has no record (log entry 19). -/
def State.setLife (s : State) (r : ReqId) (l : Life) : State :=
  match s.request r with
  | some q => s.setRequest r { q with life := l }
  | none => s

/-- One byte of a request's buffer, the model's read of one byte of memory: `none` where there is no such byte. -/
def State.readByte (s : State) (r : ReqId) (i : Nat) : Option Byte :=
  match s.request r with
  | some q => q.buf.read i
  | none => none

/-! ### Output actions (R15, R40, R260) -/

/-- `emit(a)` (R15). -/
def State.emit (s : State) (a : Action) : State := { s with trace := s.trace ++ [a] }

/-- `emit CMD(c)`: one write of `CTRL_WORD(c)` to the control register, and the arming (R40, R262). -/
def State.command (s : State) (c : Command) : State :=
  { s.emit (.cmd c) with armed := arms c, controlReg := Config.ctrlWord c }

/-- `emit LOAD(b)` inside an EVENT step: one write of `b` to the data register (R40, R271). The step's own event is pending on
the peripheral until the step's command, so there is no collision, and an earlier one is cleared. PRESUMED (log entry 28). -/
def State.load (s : State) (b : Byte) : State := { s.emit (.load b) with dataReg := b, writeCollision := false }

/-- `emit LOAD(b)` outside every EVENT step: with no event pending, which is `armed` false (R31, R41), the write sets the
write-collision flag (R271). The byte is written all the same (R40). DEDUCED (log entry 28). -/
def State.loadOutsideEvent (s : State) (b : Byte) : State := { s.load b with writeCollision := !s.armed }

/-- `emit CALLBACK(r, p)` (R40). -/
def State.callback (s : State) (r : ReqId) (p : Option Byte) : State := s.emit (.callback r p)

/-- `emit RELEASE(r, o)` (R40). -/
def State.release (s : State) (r : ReqId) (o : Tag) : State := s.emit (.release r o)

/-- The status register with its prescaler field, bits 1..0, replaced (R36, R39). -/
def withPrescalerSelect (st : Byte) (sel : BitVec 2) : Byte := st.extractLsb' 2 6 ++ sel

/-- `emit CFG(div, presc)`: one write of the divider and the prescaler (R39, R40, R134). -/
def State.writeConfig (s : State) (divider prescaler : Nat) : State :=
  { s.emit (.cfg divider prescaler) with
    dividerReg := BitVec.ofNat 8 divider
    statusReg := withPrescalerSelect s.statusReg (Config.prescalerSelect prescaler) }

/-! ### The queue (R24) -/

/-- The queue is at its capacity. -/
def queueFull (cap : Option Nat) (queue : List ReqId) : Bool :=
  match cap with
  | some n => decide (n ≤ queue.length)
  | none => false

/-- Dequeue the head, mark it Current, make it the current request, and issue the command that starts it (R152, R233). On an
empty queue, where no caller dequeues, nothing happens. -/
def State.startHead (s : State) (c : Command) : State :=
  match s.queue with
  | n :: rest => ({ s with queue := rest, current := some n }.setLife n .current).command c
  | [] => s

/-! ### Faults and refusals (R15, R33, R46, R303, R304, R305) -/

/-- `raise Fault(F)`: the step's writes are discarded, `s` being the state before the step, and the mark is set (R303). -/
def State.raise (s : State) (f : Fault) : State := { s with fault := some f }

/-- `Refuse(reason)`: the mark is set and nothing else changes (R46, R304). -/
def State.refuse (s : State) (r : RefuseReason) : State := { s with refused := some r }

/-- The sticky checks that precede every step: the fault mark, then the refusal mark (R33, R46, R305). -/
def guarded (s : State) (body : State → Host.Outcome State Fault Refusal) : Host.Outcome State Fault Refusal :=
  match s.fault with
  | some f => .fault f
  | none =>
    match s.refused with
    | some r => .refused (.sticky r)
    | none => body s

/-- The end of a step that may raise a fault: its result, or the state `s` before it with the mark (R303). -/
def commit (s : State) (result : Except Fault State) : Host.Outcome State Fault Refusal :=
  match result with
  | .ok t => .next t
  | .error f => .next (s.raise f)

/-- The peripheral latches the status and data bytes of an event, and the block consumes the event (R38, R170). DESIGN CHOICE: the
whole status register becomes the raw byte S (R36), so bits 1..0 hold S[1:0] from then on, and not the prescaler select that
INIT wrote; R39 and R61 leave open what they hold when S differs there, and no rule reads them (R91, log entry 27). -/
def State.latch (s : State) (st d : Byte) : State :=
  { s with statusReg := st, dataReg := d, armed := false }

/-- The entry every EVENT step shares (R170), and then the arm, given the current request and its record. The arm works on the
state after the latch. -/
def event (st d : Byte) (arm : State → ReqId → Request → Except Fault State) (s : State) :
    Host.Outcome State Fault Refusal :=
  guarded s fun s =>
    match s.current with
    | none => .next (s.raise .spuriousEvent)
    | some r =>
      match s.request r with
      | none => .next (s.raise .danglingRecord)
      | some q => commit s (arm (s.latch st d) r q)

end Sys2Proof.Machine
end

