-- ==== Sys2Proof/Machine/Operands.lean ====
section
/-! DEFINITION. The operands of the instructions (R99): the address byte, the byte at the cursor, the received byte, and the
counts of the current request. -/

namespace Sys2Proof.Machine

/-- `rw_bit` (R92). -/
def rwBit : Direction → Byte
  | .write => 0
  | .read => 1

/-- The address byte SLA+W / SLA+R: `(zext_8(addr) << 1) | rw_bit` (R92). -/
def addrByte (addr : BusAddr) (dir : Direction) : Byte := (addr.zeroExtend 8 <<< 1) ||| rwBit dir

/-- `MemRead(buf, cursor, 1)`: the byte a transmit sends; `none` is the bound fault (R99, R190, R194). -/
def Request.byteAtCursor (q : Request) : Option Byte := q.buf.read q.cursor

/-- The counts after one data ACK: one byte fewer remains, the cursor moves on (R194, R214). -/
def Request.advance (q : Request) : Request :=
  { q with remaining := q.remaining - 1, cursor := q.cursor + 1 }

/-- Where a receive store goes: the cursor, while it lies within the buffer (R217). -/
def Request.storeOffset (q : Request) : Option Nat := if q.cursor < q.buf.len then some q.cursor else none

/-- The byte a receive store leaves at its offset: the received byte or the old one, as the `n`-th draw says (R217, log
entry 6). -/
def storedByte (n : Nat) (received : Byte) (old : Byte) : Byte := if Config.storeDraw n then received else old

/-- `RxStore(r, v)` on a request record, with the number of the draw (R217). -/
def Request.rxStore (q : Request) (n : Nat) (v : Byte) : Request :=
  match q.storeOffset with
  | some i => { q with buf := q.buf.write i (storedByte n v ((q.buf.read i).getD Memory.unlisted)) }
  | none => q

/-- The draws taken once `RxStore` on `q` is done: one more where the cursor lies within the buffer (R217). -/
def Request.drawsAfter (q : Request) (n : Nat) : Nat :=
  match q.storeOffset with
  | some _ => n + 1
  | none => n

/-- The ACK or NACK a receive answers with, by the count after the decrement (R214, R215). -/
def ackOrNack (q : Request) : Command := if q.wantsMore then .ack else .nack

end Sys2Proof.Machine
end

