-- ==== Sys2Proof/Machine/Directives.lean ====
section
/-! DEFINITION. What the host does outside the block's inputs: creating devices and requests, writing its own buffers (R44, R71,
R105). -/

namespace Sys2Proof.Machine

/-- `NEW_DEVICE(d, addr)` (R44). -/
def State.newDevice (s : State) (d : DevId) (addr : BusAddr) : State :=
  match s.device d with
  | some _ => s.refuse .idInUse
  | none => { s with devs := Table.put s.devs d { addr := addr } }

/-- `NEW_REQUEST(r, d, buf, len, remaining, has_cb)`: the identifier is checked before the device (R44, log entry 21). -/
def State.newRequest (s : State) (r : ReqId) (d : DevId) (buf : List Byte) (remaining : Nat) (cb : Bool) : State :=
  match s.request r with
  | some _ => s.refuse .idInUse
  | none =>
    match s.device d with
    | none => s.refuse .noDevice
    | some _ =>
      s.setRequest r
        { dir := .write, device := d, buf := Memory.ofBytes buf, cursor := 0, remaining := remaining, hasCb := cb, life := .fresh }

/-- The host writes one byte of the buffer of `r` (R71); `none` where there is no such byte (log entry 20). -/
def State.hostWrite (s : State) (r : ReqId) (offset : Nat) (v : Byte) : Option State :=
  match s.request r with
  | some q => if offset < q.buf.len then some (s.setRequest r { q with buf := q.buf.write offset v }) else none
  | none => none

/-- What a directive that the host can spell does. -/
def obey (dir : Directive) (s : State) : Host.Outcome State Fault Refusal :=
  match dir with
  | .newDevice d addr => .next (s.newDevice d addr)
  | .newRequest r d buf remaining cb => .next (s.newRequest r d buf remaining cb)
  | .bufWrite r offset v =>
    match s.hostWrite r offset v with
    | some t => .next t
    | none => .refused .hostWriteOutside

/-- One directive as a step; a NEW_REQUEST whose count is no `REM_WIDTH`-bit number is refused before its checks (R9, log
entry 8). -/
def direct (dir : Directive) (s : State) : Host.Outcome State Fault Refusal :=
  if dir.fits s.remWidth then obey dir s else .refused .countTooWide

/-- A packet that spells no instruction: a record is refused with its mark (R110), a word that is no command's stops. -/
def rejectPacket (e : DecodeError) (s : State) : Host.Outcome State Fault Refusal :=
  match e with
  | .reservedKind => .next (s.refuse .reservedKind)
  | .reservedBits => .next (s.refuse .reservedBits)
  | .noCommand => .refused .noCommand

end Sys2Proof.Machine
end

