-- ==== Sys2Proof/Machine/AddressPhase.lean ====
section
/-! DEFINITION. The START-class arms: EV_START and EV_REPEAT_START (R172 to R174). -/

namespace Sys2Proof.Machine

/-- `AddressPhase(cur)`: the address byte is loaded, then transmitted (R173). -/
def addressPhase (t : State) (_cur : ReqId) (q : Request) : Except Fault State :=
  match t.device q.device with
  | some dev => .ok ((t.load (addrByte dev.addr q.dir)).command .transmit)
  | none => .error .danglingRecord

/-- EV_START (R172). -/
def execEvStart (st d : Byte) (s : State) : Host.Outcome State Fault Refusal := event st d addressPhase s

/-- EV_REPEAT_START (R174). -/
def execEvRepeatStart (st d : Byte) (s : State) : Host.Outcome State Fault Refusal := event st d addressPhase s

end Sys2Proof.Machine
end

