-- ==== Sys2Proof/Machine/Configuration.lean ====
section
/-! DEFINITION. Bus Configuration: INIT and the CFG action (R130 to R137). -/

namespace Sys2Proof.Machine

/-- The divider relation, rounding down (R132). -/
def dividerFor (clock prescaler target : Nat) : Nat := (clock - 16 * target) / (2 * prescaler ^ 2 * target)

/-- The effective frequency (R136). -/
def effectiveHz (clock prescaler divider : Nat) : Nat := clock / (16 + 2 * prescaler ^ 2 * divider)

/-- The five checks of INIT in their order, and the divider where none of them fails; `none` is CONFIG_ERROR (R130, R133). -/
def initDivider (clock prescaler divMax target : Nat) : Option Nat :=
  if target = 0 then none
  else if 10 * target > clock then none
  else if 16 * target > clock then none
  else if dividerFor clock prescaler target > divMax then none
  else if 10 * effectiveHz clock prescaler (dividerFor clock prescaler target) > clock then none
  else some (dividerFor clock prescaler target)

/-- The end of an INIT: on success the configuration, CFG and `Ok`; on an error only what the caller is told (R130, R134,
R135). -/
def State.finishInit (s : State) : Option Nat → State
  | some divider =>
    { s with
      config := some { divider := divider, prescaler := Config.prescaler }
      initResult := some (.ok divider Config.prescaler) }.writeConfig divider Config.prescaler
  | none => { s with initResult := some (.error .configError) }

/-- INIT (R130, R131). -/
def execInit (target : Nat) (s : State) : Host.Outcome State Fault Refusal :=
  guarded s fun s =>
    match s.config with
    | some _ => .next (s.raise .reinit)
    | none => .next (s.finishInit (initDivider s.coreClock Config.prescaler Config.divMax target))

/-- CFG as a step of its own (R39, R134, log entry 15). -/
def execCfg (divider : Byte) (prescaler : Nat) (s : State) : Host.Outcome State Fault Refusal :=
  guarded s fun s => .next (s.writeConfig divider.toNat prescaler)

end Sys2Proof.Machine
end

