-- ==== Sys2Proof/Machine/Dispatcher.lean ====
section
/-! DEFINITION. The request dispatcher: SUBMIT_W and SUBMIT_R (R150 to R158). -/

namespace Sys2Proof.Machine

/-- The request enters the queue with its direction set (R151). -/
def State.enqueue (s : State) (r : ReqId) (q : Request) (dir : Direction) : State :=
  { s with queue := s.queue ++ [r] }.setRequest r { q with dir := dir, life := .queued }

/-- After the enqueue: on an Idle bus the head of the queue starts and the bus becomes Active; on an Active bus nothing more
happens (R152, R153). -/
def State.dispatch (s : State) : State :=
  match s.busState with
  | .idle => { s with busState := .active }.startHead .start
  | .active => s

/-- `Submit(r, dir)` with a queue capacity (R150 to R153). -/
def submit (cap : Option Nat) (r : ReqId) (dir : Direction) (s : State) : Host.Outcome State Fault Refusal :=
  guarded s fun s =>
    match s.config with
    | none => .next (s.raise .submitBeforeInit)
    | some _ =>
      match s.request r with
      | none => .next (s.raise .reqNotFresh)
      | some q =>
        if q.life ≠ .fresh then .next (s.raise .reqNotFresh)
        else if queueFull cap s.queue then .next (s.raise .queueOverflow)
        else .next (s.enqueue r q dir).dispatch

/-- SUBMIT_W (R154). -/
def execSubmitW (r : ReqId) (s : State) : Host.Outcome State Fault Refusal := submit Config.queueCap r .write s

/-- SUBMIT_R (R155). -/
def execSubmitR (r : ReqId) (s : State) : Host.Outcome State Fault Refusal := submit Config.queueCap r .read s

end Sys2Proof.Machine
end

