-- ==== Sys2Proof/Machine/Primitives.lean ====
section
/-! DEFINITION. The register primitives as steps of their own (R260 to R271). The block issues them inside the steps of the other
families, through the same shared operations; as steps of their own they are the model's convention (log entry 15). -/

namespace Sys2Proof.Machine

/-- A command as a step. -/
def primitive (c : Command) (s : State) : Host.Outcome State Fault Refusal := guarded s fun s => .next (s.command c)

/-- START (R263). -/
def execStart (s : State) : Host.Outcome State Fault Refusal := primitive .start s

/-- STOP (R264). -/
def execStop (s : State) : Host.Outcome State Fault Refusal := primitive .stop s

/-- STOP_START: one atomic write (R265, R356). -/
def execStopStart (s : State) : Host.Outcome State Fault Refusal := primitive .stopStart s

/-- ACK (R266). -/
def execAck (s : State) : Host.Outcome State Fault Refusal := primitive .ack s

/-- NACK (R267). -/
def execNack (s : State) : Host.Outcome State Fault Refusal := primitive .nack s

/-- TRANSMIT (R268). -/
def execTransmit (s : State) : Host.Outcome State Fault Refusal := primitive .transmit s

/-- STOP_RX (R269). -/
def execStopRx (s : State) : Host.Outcome State Fault Refusal := primitive .stopRx s

/-- STOP_START_RX: one atomic write (R270). -/
def execStopStartRx (s : State) : Host.Outcome State Fault Refusal := primitive .stopStartRx s

/-- LOAD: as a step of its own it stands outside every EVENT step, and collides where no event is pending (R271, log entry 28). -/
def execLoad (b : Byte) (s : State) : Host.Outcome State Fault Refusal := guarded s fun s => .next (s.loadOutsideEvent b)

end Sys2Proof.Machine
end

