-- ==== Sys2Proof/Machine/Termination.lean ====
section
/-! DEFINITION. How a request ends: the queue-draining tail, NACK-recovery, Completion, RX-completion (R230 to R238), and the
default arm, EV_OTHER (R239 to R241). -/

namespace Sys2Proof.Machine

/-- The STOP pair a terminal sequence uses (R230, R233). -/
inductive StopMode where
  | tx
  | rx
deriving DecidableEq, Repr

/-- The combined STOP-then-START of a mode (R233). -/
def StopMode.chain : StopMode → Command
  | .tx => .stopStart
  | .rx => .stopStartRx

/-- The plain STOP of a mode (R233). -/
def StopMode.stop : StopMode → Command
  | .tx => .stop
  | .rx => .stopRx

/-- `DrainOrIdle(mode)` (R233). -/
def State.drainOrIdle (s : State) (mode : StopMode) : State :=
  match s.queue with
  | _ :: _ => s.startHead mode.chain
  | [] => { s with busState := .idle }.command mode.stop

/-- The current request `cur` ends: `current` is cleared, the request, whose record is `q`, is marked Released, and then
released with the tag (R230 steps 2 and 3, R231). -/
def State.endRequest (s : State) (cur : ReqId) (q : Request) (o : Tag) : State :=
  ({ s with current := none }.setRequest cur { q with life := .released }).release cur o

/-- `NackRecovery(cur, o)` (R232, R234). -/
def State.nackRecovery (s : State) (cur : ReqId) (q : Request) (o : Tag) : State :=
  (s.endRequest cur q o).drainOrIdle .tx

/-- `Completion(cur)`: the callback with no payload, once, then cleared (R235, R236). -/
def State.completion (s : State) (cur : ReqId) (q : Request) : State :=
  if q.hasCb then
    ((s.callback cur none).endRequest cur { q with hasCb := false } .ok).drainOrIdle .tx
  else (s.endRequest cur q .ok).drainOrIdle .tx

/-- `RxCompletion(cur)` (R237). -/
def State.rxCompletion (s : State) (cur : ReqId) (q : Request) : State :=
  (s.endRequest cur q .ok).drainOrIdle .rx

/-- EV_OTHER: release, Idle, STOP; the queue is not drained (R239, R240, R241). -/
def execEvOther (st d : Byte) (s : State) : Host.Outcome State Fault Refusal :=
  event st d (fun t cur q => .ok ({ t.endRequest cur q .unexpected with busState := .idle }.command .stop)) s

end Sys2Proof.Machine
end

