-- ==== Sys2Proof/Machine/ReadPath.lean ====
section
/-! DEFINITION. The master-receiver arms (R210 to R218). -/

namespace Sys2Proof.Machine

/-- `RxStore(cur, v)` on the state: the record after the store, and the draw counted (R217). -/
def State.rxStore (t : State) (cur : ReqId) (q : Request) (v : Byte) : State :=
  { t.setRequest cur (q.rxStore t.draws v) with draws := q.drawsAfter t.draws }

/-- The callback of a receive, where the request has one: it is not cleared (R29, R214, R216). -/
def State.rxCallback (t : State) (cur : ReqId) (q : Request) (v : Byte) : State :=
  if q.hasCb then t.callback cur (some v) else t

/-- EV_ADDR_ACK_R: ACK asks for the first byte; a zero-length request ends at once (R210, R211). -/
def execEvAddrAckR (st d : Byte) (s : State) : Host.Outcome State Fault Refusal :=
  event st d (fun t cur q => if q.remaining = 0 then .ok (t.rxCompletion cur q) else .ok (t.command .ack)) s

/-- EV_ADDR_NACK_R (R212). -/
def execEvAddrNackR (st d : Byte) (s : State) : Host.Outcome State Fault Refusal :=
  event st d (fun t cur q => .ok (t.nackRecovery cur q .addrNack)) s

/-- EV_DATA_ACK_R: the count falls, the byte is stored at the old cursor or not, the cursor moves on, the callback fires, and
the master answers ACK or NACK (R214, R215, R217). The byte is the one `read_data_register()` gives (R273). -/
def execEvDataAckR (st d : Byte) (s : State) : Host.Outcome State Fault Refusal :=
  event st d (fun t cur q =>
    if q.remaining = 0 then .error .remUnderflow
    else
      let u := t.rxStore cur q t.dataReg
      let q' := (q.rxStore t.draws t.dataReg).advance
      .ok (((u.setRequest cur q').rxCallback cur q' t.dataReg).command (ackOrNack q'))) s

/-- EV_DATA_NACK_R: the final byte is stored at the cursor or not, the callback fires, and the request ends (R216, R217). -/
def execEvDataNackR (st d : Byte) (s : State) : Host.Outcome State Fault Refusal :=
  event st d (fun t cur q =>
    .ok (((t.rxStore cur q t.dataReg).rxCallback cur q t.dataReg).rxCompletion cur (q.rxStore t.draws t.dataReg))) s

end Sys2Proof.Machine
end

