-- ==== Sys2Proof/Machine/WritePath.lean ====
section
/-! DEFINITION. The master-transmitter arms (R190 to R196). -/

namespace Sys2Proof.Machine

/-- The byte at the cursor is loaded, then transmitted; beyond the buffer it is a bound fault (R190, R194). -/
def sendByteAtCursor (t : State) (q : Request) : Except Fault State :=
  match q.byteAtCursor with
  | some b => .ok ((t.load b).command .transmit)
  | none => .error .bufBounds

/-- EV_ADDR_ACK_W: the first byte, or Completion of a zero-length request (R190, R191). -/
def execEvAddrAckW (st d : Byte) (s : State) : Host.Outcome State Fault Refusal :=
  event st d (fun t cur q => if q.remaining = 0 then .ok (t.completion cur q) else sendByteAtCursor t q) s

/-- EV_ADDR_NACK_W (R192). -/
def execEvAddrNackW (st d : Byte) (s : State) : Host.Outcome State Fault Refusal :=
  event st d (fun t cur q => .ok (t.nackRecovery cur q .addrNack)) s

/-- EV_DATA_ACK_W: the next byte, or Completion after the last (R194). -/
def execEvDataAckW (st d : Byte) (s : State) : Host.Outcome State Fault Refusal :=
  event st d (fun t cur q =>
    if q.remaining = 0 then .error .remUnderflow
    else if q.advance.wantsMore then sendByteAtCursor (t.setRequest cur q.advance) q.advance
    else .ok ((t.setRequest cur q.advance).completion cur q.advance)) s

/-- EV_DATA_NACK_W (R195). -/
def execEvDataNackW (st d : Byte) (s : State) : Host.Outcome State Fault Refusal :=
  event st d (fun t cur q => .ok (t.nackRecovery cur q .dataNack)) s

end Sys2Proof.Machine
end

