-- ==== Sys2Proof/Machine/Dispatch.lean ====
section
/-! DEFINITION. One arm per instruction. -/

namespace Sys2Proof.Machine

def exec (i : Instr) (s : State) : Host.Outcome State Fault Refusal :=
  match i with
  | .init target => Sys2Proof.Machine.execInit target s
  | .submitW r => Sys2Proof.Machine.execSubmitW r s
  | .submitR r => Sys2Proof.Machine.execSubmitR r s
  | .evStart st d => Sys2Proof.Machine.execEvStart st d s
  | .evRepeatStart st d => Sys2Proof.Machine.execEvRepeatStart st d s
  | .evAddrAckW st d => Sys2Proof.Machine.execEvAddrAckW st d s
  | .evAddrNackW st d => Sys2Proof.Machine.execEvAddrNackW st d s
  | .evDataAckW st d => Sys2Proof.Machine.execEvDataAckW st d s
  | .evDataNackW st d => Sys2Proof.Machine.execEvDataNackW st d s
  | .evAddrAckR st d => Sys2Proof.Machine.execEvAddrAckR st d s
  | .evAddrNackR st d => Sys2Proof.Machine.execEvAddrNackR st d s
  | .evDataAckR st d => Sys2Proof.Machine.execEvDataAckR st d s
  | .evDataNackR st d => Sys2Proof.Machine.execEvDataNackR st d s
  | .evOther st d => Sys2Proof.Machine.execEvOther st d s
  | .start => Sys2Proof.Machine.execStart s
  | .stop => Sys2Proof.Machine.execStop s
  | .stopStart => Sys2Proof.Machine.execStopStart s
  | .ack => Sys2Proof.Machine.execAck s
  | .nack => Sys2Proof.Machine.execNack s
  | .transmit => Sys2Proof.Machine.execTransmit s
  | .stopRx => Sys2Proof.Machine.execStopRx s
  | .stopStartRx => Sys2Proof.Machine.execStopStartRx s
  | .load b => Sys2Proof.Machine.execLoad b s
  | .cfg divider prescaler => Sys2Proof.Machine.execCfg divider prescaler s

end Sys2Proof.Machine
end

