-- ==== Sys2Proof/Machine/Delivery.lean ====
section
/-! DEFINITION. Delivering the next input to the machine: the machine's fetch (R17, R70). -/

namespace Sys2Proof.Machine

/-- The response to one input (R17). -/
def respond (inp : Input) (s : State) : Host.Outcome State Fault Refusal :=
  match inp with
  | .directive d => direct d s
  | .packet p =>
    match decodePacket p with
    | .ok i => exec i s
    | .error e => rejectPacket e s

/-- The next input is taken off the list and answered; with no input the machine waits, unchanged (R17, R317, R318, log
entry 1). -/
def deliverNext (s : State) : Host.Outcome State Fault Refusal :=
  match s.inputs with
  | [] => .next s
  | inp :: rest => respond inp { s with inputs := rest }

/-- The state with a packet as its next input. -/
def State.offer (s : State) (p : Packet) : State := { s with inputs := .packet p :: s.inputs }

end Sys2Proof.Machine
end

