-- ==== Sys2Proof/Machine/Step.lean ====
section
/-! DEFINITION. One step of the machine, and the state that runs an opcode-table word next. -/

namespace Sys2Proof.Machine

/-- One step: the sticky checks (R33, R46), then the next input is delivered (R17). -/
def step (s : State) : Host.Outcome State Fault Refusal := guarded s deliverNext

/-- The state with the instruction of an opcode-table word as its next input. -/
def State.withFetchWord (s : State) (nbits w : Nat) : State := s.offer (tablePacket nbits w)

end Sys2Proof.Machine
end

