-- ==== Sys2Proof/Safety.lean ====
section
/-! DEFINITION. The terms claims are made in: running states, the invariants the spec states, counts over the trace, the order of
service, and the peripheral's duty. -/

namespace Sys2Proof.Machine

/-! ### Running states (R33, R46: the premise of every claim) -/

/-- Neither sticky mark is set. -/
abbrev State.Running (s : State) : Prop := s.fault = none ∧ s.refused = none

/-- An event that is delivered now is served for the request `r`, whose record is `q`. -/
abbrev State.Serving (s : State) (r : ReqId) (q : Request) : Prop :=
  s.Running ∧ s.current = some r ∧ s.request r = some q

/-- `n` is the head of the queue, `rest` the others, `qn` its record; it is not the request `r`. -/
abbrev State.NextUp (s : State) (r n : ReqId) (rest : List ReqId) (qn : Request) : Prop :=
  s.queue = n :: rest ∧ n ≠ r ∧ s.request n = some qn

/-! ### Invariants -/

/-- R23: the bus is Active exactly while a request is current. -/
abbrev State.BusInv (s : State) : Prop := s.busState = .active ↔ s.current.isSome = true

/-- R31, R175, R176: an event is owed exactly while a request is current. -/
abbrev State.ArmedInv (s : State) : Prop := s.armed = true ↔ s.current.isSome = true

/-- R23, R28: the queue holds each Queued request once and nothing else, and the current request is the one Current request. -/
structure State.LifeInv (s : State) : Prop where
  queue_nodup : s.queue.Nodup
  queue_queued : ∀ r ∈ s.queue, ∃ q, s.request r = some q ∧ q.life = .queued
  current_current : ∀ r, s.current = some r → ∃ q, s.request r = some q ∧ q.life = .current
  queued_in_queue : ∀ r q, s.request r = some q → q.life = .queued → r ∈ s.queue
  current_is_current : ∀ r q, s.request r = some q → q.life = .current → s.current = some r

/-- How often the trace releases a request. -/
def releases (r : ReqId) (trace : List Action) : Nat :=
  trace.countP fun a => match a with
    | .release x _ => x == r
    | _ => false

/-- How often the trace invokes a request's callback with no payload, which is how a Write callback is invoked. -/
def writeCallbacks (r : ReqId) (trace : List Action) : Nat :=
  trace.countP fun a => match a with
    | .callback x none => x == r
    | _ => false

/-- The request has been Released. -/
def State.isReleased (s : State) (r : ReqId) : Bool :=
  match s.request r with
  | some q => q.life == .released
  | none => false

/-- The request was completed with its callback: it is Released and its callback is cleared. -/
def State.isCompleted (s : State) (r : ReqId) : Bool :=
  match s.request r with
  | some q => q.life == .released && !q.hasCb
  | none => false

/-- R236, R242: a request is released once if it is Released and never otherwise; its Write callback has fired at most once, and
not before it was completed. -/
structure State.TraceInv (s : State) : Prop where
  released_once : ∀ r, releases r s.trace = if s.isReleased r then 1 else 0
  callback_once : ∀ r, writeCallbacks r s.trace ≤ 1
  callback_completed : ∀ r, writeCallbacks r s.trace = 1 → s.isCompleted r = true

/-- The block's invariant: bus, lifecycle and trace together. -/
structure State.Inv (s : State) : Prop where
  bus : s.BusInv
  life : s.LifeInv
  trace : s.TraceInv

/-- The tables and every buffer are in canonical form: equal states are equal data. -/
structure State.CanonicalInv (s : State) : Prop where
  reqs_rise : Table.Canonical s.reqs
  devs_rise : Table.Canonical s.devs
  buffers_wf : ∀ r q, s.request r = some q → q.buf.wf

/-- R44: every request's device has a record. R134: a configuration holds a divider that fits and the machine's prescaler.
R305: at most one sticky mark is set. -/
structure State.RecordInv (s : State) : Prop where
  device_exists : ∀ r q, s.request r = some q → (s.device q.device).isSome = true
  config_fits : ∀ c, s.config = some c → c.divider ≤ Config.divMax ∧ c.prescaler = Config.prescaler
  one_mark : s.fault = none ∨ s.refused = none

/-- R9: `REM_WIDTH` is at least 1, and every request's count lies in `[0, 2^REM_WIDTH - 1]`. -/
structure State.CountsFit (s : State) : Prop where
  width_pos : 1 ≤ s.remWidth
  records : ∀ r q, s.request r = some q → q.remaining < 2 ^ s.remWidth

/-- No register write is still to be run as a step of its own: the inputs are those of R90 and the host's directives. -/
abbrev State.OnlyInputs (s : State) : Prop := ∀ x ∈ s.inputs, x.isRegisterWrite = false

/-! ### Whole-machine vocabulary -/

/-- The requests in the order they are served: the current one, then the queue (R78). -/
def State.line (s : State) : List ReqId := s.current.toList ++ s.queue

/-- What one step may turn a lifecycle state into (R28; a SUBMIT on an Idle bus takes two of its transitions). -/
def Life.mayBecome : Life → Life → Bool
  | .fresh, .fresh | .fresh, .queued | .fresh, .current => true
  | .queued, .queued | .queued, .current => true
  | .current, .current | .current, .released => true
  | .released, .released => true
  | _, _ => false

/-- The action is a write to the control register. -/
def Action.isCmd : Action → Bool
  | .cmd _ => true
  | .load _ | .callback _ _ | .release _ _ | .cfg _ _ => false

/-- The status and data bytes of an event (R90). -/
def eventBytes : Instr → Option (Byte × Byte)
  | .evStart st d | .evRepeatStart st d | .evAddrAckW st d | .evAddrNackW st d | .evDataAckW st d | .evDataNackW st d
  | .evAddrAckR st d | .evAddrNackR st d | .evDataAckR st d | .evDataNackR st d | .evOther st d => some (st, d)
  | .init _ | .submitW _ | .submitR _ | .start | .stop | .stopStart | .ack | .nack | .transmit | .stopRx | .stopStartRx
  | .load _ | .cfg _ _ => none

/-- The byte that a list of actions ends by loading; else the byte given. -/
def lastLoaded (acts : List Action) (d : Byte) : Byte :=
  match acts.getLast? with
  | some (.load b) => b
  | _ => d

/-- The write-collision flag after a list of actions of the block: cleared where the list ends in a load; else as it was (R271, log
entry 28). -/
def collisionAfter (acts : List Action) (before : Bool) : Bool :=
  match acts.getLast? with
  | some (.load _) => false
  | _ => before

/-- A callback of a request that has one (R214, R216, R235). -/
def callbackIf (q : Request) (r : ReqId) (payload : Option Byte) : List Action :=
  if q.hasCb then [.callback r payload] else []

/-- What the byte under the cursor may be after a receive of `d`: the received byte, or the one that stood there (R217). -/
abbrev Request.MayHold (q : Request) (d v : Byte) : Prop := v = d ∨ q.buf.read q.cursor = some v

/-- The buffer with the byte `v` under the cursor; beyond the buffer nothing is written (R217). -/
def Request.bufWith (q : Request) (v : Byte) : Memory :=
  if q.cursor < q.buf.len then q.buf.write q.cursor v else q.buf

/-- The state without what an event latches: the status and data registers. -/
def State.forgetLatch (s : State) : State := { s with statusReg := 0, dataReg := 0 }

/-- The outcomes are the same but for what an event latches. -/
def sameButLatch : Host.Outcome State Fault Refusal → Host.Outcome State Fault Refusal → Prop
  | .next s, .next t => s.forgetLatch = t.forgetLatch
  | .fault f, .fault g => f = g
  | .refused a, .refused b => a = b
  | _, _ => False

/-- Instructions one after another, as long as each answers a next state. -/
def execAll : List Instr → State → Host.Outcome State Fault Refusal
  | [], s => .next s
  | i :: is, s =>
    match exec i s with
    | .next t => execAll is t
    | .fault f => .fault f
    | .refused r => .refused r

/-! ### The peripheral's duty (R41, R175, R274) -/

/-- An event stands next among the inputs. -/
def State.eventNext (s : State) : Bool :=
  match s.inputs with
  | .packet p :: _ =>
    match decodePacket p with
    | .ok i => i.isEvent
    | .error _ => false
  | _ => false

/-- The peripheral keeps its duty: it delivers an event only while the block is armed (R41, R175). -/
abbrev State.Disciplined (s : State) : Prop := s.eventNext = true → s.armed = true

/-- What the peripheral was last told to do, read from the trace with its newest action first (R274). The byte of a TRANSMIT is
an address if the command before it is a START. -/
def lastCommand : List Action → Config.LastCommand
  | .cmd .start :: _ | .cmd .stopStart :: _ | .cmd .stopStartRx :: _ => .start
  | .cmd .ack :: _ => .ack
  | .cmd .nack :: _ => .nack
  | .cmd .transmit :: .load b :: .cmd .start :: _
  | .cmd .transmit :: .load b :: .cmd .stopStart :: _
  | .cmd .transmit :: .load b :: .cmd .stopStartRx :: _ => if b.getLsbD 0 then .slaRead else .slaWrite
  | .cmd .transmit :: _ => .dataByte
  | .cmd .stop :: _ | .cmd .stopRx :: _ => .stopped
  | .load _ :: t | .callback _ _ :: t | .release _ _ :: t | .cfg _ _ :: t => lastCommand t
  | [] => .stopped

/-- The default peripheral may report this raw status byte next (R274): informative, no definition of the machine reads it. -/
def State.defaultMayReport (s : State) (st : Byte) : Bool :=
  (Config.defaultReports (lastCommand s.trace.reverse)).contains (statusKey Config.binding st)

end Sys2Proof.Machine
end

