-- ==== Sys2Proof/Certificates/Slice0/Obligations.lean ====
section
/-! DEFINITION. The statements for the provers. Each docstring names the rule or the section of spec/ it formalises. -/

open Sys2Proof Sys2Proof.Machine

/-! ### Encoding -/

/-- Words written out from the record format (R104, R108, R110) decode as the spec says: the sixteen vectors V-EN-1 to V-EN-16,
and the record of V-TE-1, 0x00000038, whose status has no name. The record is the spec's own choice (92 D24). -/
def Obligations.SpecWordsDecode : Prop :=
  decodeRecord 0x00000008 = .ok (.evStart 0x08 0x00) ∧
  decodeRecord 0x0000000B = .ok (.evStart 0x0B 0x00) ∧
  decodeRecord 0x0000EE1F = .ok (.evAddrAckW 0x1F 0xEE) ∧
  decodeRecord 0x00005A50 = .ok (.evDataAckR 0x50 0x5A) ∧
  decodeRecord 0x00000038 = .ok (.evOther 0x38 0x00) ∧
  decodeRecord 0x40000001 = .ok (.submitW 1) ∧
  decodeRecord 0x40FFFFFF = .ok (.submitW 16777215) ∧
  decodeRecord 0x60000002 = .ok (.submitR 2) ∧
  decodeRecord 0x800186A0 = .ok (.init 100000) ∧
  decodeRecord 0xBFFFFFFF = .ok (.init 1073741823) ∧
  decodeRecord 0xC0000000 = .error .reservedKind ∧
  decodeRecord 0xFFFFFFFF = .error .reservedKind ∧
  decodeRecord 0x00010008 = .error .reservedBits ∧
  decodeRecord 0x20000000 = .error .reservedBits ∧
  decodeRecord 0x41000001 = .error .reservedBits ∧
  decodeRecord 0x7F000001 = .error .reservedBits ∧
  decodeRecord 0x00FF0018 = .error .reservedBits

/-- R96: under every binding that passes the check of R10, a status byte has a name exactly if its masked value is the name's
code, so at most one name; and it is OTHER exactly if its masked value is no name's code. -/
def Obligations.StatusNameIffCode : Prop :=
  ∀ b : Config.Binding, b.ok = true → ∀ st : Byte,
    (∀ n, decodeStatusWith b st = some n ↔ b.statusCode n = st &&& b.statusMask) ∧
    (decodeStatusWith b st = none ↔ ∀ n, b.statusCode n ≠ st &&& b.statusMask)

/-- Every well-formed input instruction is read back from its record, with every operand (R104: the spec's own record, 92
D24). -/
def Obligations.RecordsRoundTrip : Prop :=
  ∀ i : Instr, i.isInput = true → i.wf = true → decodePacket (encode i) = .ok i

/-- Every record the decoder accepts is the record of the instruction it reads, which is a well-formed input: each word has one
meaning (R104, R109; 92 D24). -/
def Obligations.AcceptedRecordsEncodeBack : Prop :=
  ∀ (w : Record) (i : Instr), decodeRecord w = .ok i → i.isInput = true ∧ i.wf = true ∧ encode i = .record w

/-- The decoder refuses a record exactly if its kind is 0b11, or its reserved bits are not zero, each by its own name (R110; 92
D24). -/
def Obligations.RecordRefusalsExact : Prop :=
  ∀ w : Record,
    (decodeRecord w = .error .reservedKind ↔ w.extractLsb' 30 2 = 3#2) ∧
    (decodeRecord w = .error .reservedBits ↔
      (w.extractLsb' 30 2 = 0#2 ∧ w.extractLsb' 16 14 ≠ 0#14) ∨ (w.extractLsb' 30 2 = 1#2 ∧ w.extractLsb' 24 5 ≠ 0#5))

/-- The output actions' words: each command, LOAD and CFG is read back from its word, but the three commands whose words R261
gives to two commands: of those the model's decoder takes the first in the table's order (log entries 10, 16). -/
def Obligations.PrimitiveWordsDecode : Prop :=
  (∀ i ∈ [Instr.start, .stop, .stopStart, .ack, .nack], decodePacket (encode i) = .ok i) ∧
  (∀ b, decodePacket (encode (.load b)) = .ok (.load b)) ∧
  (∀ (divider : Byte) (p : Nat), p < 256 → decodePacket (encode (.cfg divider p)) = .ok (.cfg divider p)) ∧
  encode .transmit = encode .nack ∧ encode .stopRx = encode .stop ∧ encode .stopStartRx = encode .stopStart

/-- The default control words set the fields the table of R261 gives them and no other (R261, R37; values of the family, log
entry 10). -/
def Obligations.ControlWordFields : Prop :=
  ∀ c : Command,
    twint (Config.ctrlWord c) = true ∧ twen (Config.ctrlWord c) = true ∧ twie (Config.ctrlWord c) = true ∧
    twwc (Config.ctrlWord c) = false ∧ (Config.ctrlWord c).getLsbD 1 = false ∧
    (twea (Config.ctrlWord c) = true ↔ c = .ack) ∧
    (twsta (Config.ctrlWord c) = true ↔ c ∈ [Command.start, .stopStart, .stopStartRx]) ∧
    (twsto (Config.ctrlWord c) = true ↔ c ∈ [Command.stop, .stopStart, .stopRx, .stopStartRx])

/-- R92: bits 7..1 of the address byte are the address, bit 0 is 0 for a Write and 1 for a Read, and the byte ranges over all
256 values. -/
def Obligations.AddressByteFields : Prop :=
  (∀ (addr : BusAddr) (dir : Direction),
    (addrByte addr dir).extractLsb' 1 7 = addr ∧ (addrByte addr dir).getLsbD 0 = decide (dir = .read)) ∧
  ∀ b : Byte, ∃ addr dir, addrByte addr dir = b

/-! ### Reset and the step -/

/-- The machine after reset: the record of R42 (the values are the spec's own choice, 92 D19). -/
def Obligations.ResetRecord : Prop :=
  State.reset.busState = .idle ∧ State.reset.current = none ∧ State.reset.queue = [] ∧ State.reset.reqs = [] ∧
  State.reset.devs = [] ∧ State.reset.config = none ∧ State.reset.armed = false ∧ State.reset.fault = none ∧
  State.reset.refused = none ∧ State.reset.trace = []

/-- A step runs the decoded instruction: from a running state whose next input is a packet that decodes to `i`, the step is exec
of `i` at the state with that input taken off (log entry 1). -/
def Obligations.StepRunsDecoded : Prop :=
  ∀ (s : State) (p : Packet) (i : Instr) (rest : List Input), s.Running → s.inputs = .packet p :: rest →
    decodePacket p = .ok i → step s = exec i { s with inputs := rest }

/-- An opcode-table word placed as the next input is what the very next step runs (log entry 1). -/
def Obligations.FetchWordRuns : Prop :=
  ∀ (s : State) (nbits w : Nat) (i : Instr), s.Running → decodeTableWord nbits w = some i →
    step (s.withFetchWord nbits w) = exec i s

/-- A record the decoder refuses sets the mark with its reason, and changes nothing else (R46, R110; 92 D24). -/
def Obligations.RefusedRecordsSetMark : Prop :=
  ∀ (s : State) (w : Record) (rest : List Input), s.Running → s.inputs = .packet (.record w) :: rest →
    (decodeRecord w = .error .reservedKind →
      step s = .next { s with inputs := rest, refused := some .reservedKind }) ∧
    (decodeRecord w = .error .reservedBits →
      step s = .next { s with inputs := rest, refused := some .reservedBits })

/-- The marks are sticky, the fault mark first: every step and every instruction answers the mark (R33, R46, R303, R305; 92
D26). -/
def Obligations.MarksAreSticky : Prop :=
  (∀ (s : State) (f : Fault), s.fault = some f → step s = .fault f ∧ ∀ i, exec i s = .fault f) ∧
  (∀ (s : State) (x : RefuseReason), s.fault = none → s.refused = some x →
    step s = .refused (.sticky x) ∧ ∀ i, exec i s = .refused (.sticky x))

/-- A step that raises a fault discards everything else it did: the next state is the state before with the mark (R303; 92
D26). -/
def Obligations.FaultDiscardsStep : Prop :=
  ∀ (i : Instr) (s t : State), exec i s = .next t → t.fault ≠ none → t = { s with fault := t.fault }

/-! ### The host's directives (R44, R71) -/

/-- Creating a device (R44): a new identifier gets its record, which reads back, and nothing else changes; an identifier in use
is refused. -/
def Obligations.NewDeviceCreates : Prop :=
  ∀ (s : State) (d : DevId) (addr : BusAddr) (rest : List Input), s.Running →
    s.inputs = .directive (.newDevice d addr) :: rest →
    (s.device d = none → ∃ t, step s = .next t ∧ t.device d = some { addr := addr } ∧
      (∀ x, x ≠ d → t.device x = s.device x) ∧ t = { s with inputs := rest, devs := t.devs }) ∧
    ((s.device d).isSome = true → step s = .next { s with inputs := rest, refused := some .idInUse })

/-- Creating a request (R44): its record has the values of R44 and its buffer reads as the bytes given; other records stay; an
identifier in use and a missing device are refused. The model's choices: that an identifier in use is ID_IN_USE also where the
device is missing, R44 giving the two reasons no order, and the direction Write (log entry 21); that a count of more than
`REM_WIDTH` bits, which R9 does not allow, is refused before both (log entry 8). -/
def Obligations.NewRequestCreates : Prop :=
  ∀ (s : State) (r : ReqId) (d : DevId) (buf : List Byte) (n : Nat) (cb : Bool) (rest : List Input), s.Running →
    s.inputs = .directive (.newRequest r d buf n cb) :: rest →
    (n < 2 ^ s.remWidth → s.request r = none → (s.device d).isSome = true → ∃ t q, step s = .next t ∧ t.request r = some q ∧
      q.device = d ∧ q.cursor = 0 ∧ q.remaining = n ∧ q.hasCb = cb ∧ q.life = .fresh ∧ q.dir = .write ∧
      q.buf.len = buf.length ∧ (∀ k, t.readByte r k = buf[k]?) ∧
      (∀ x, x ≠ r → t.request x = s.request x) ∧ t = { s with inputs := rest, reqs := t.reqs }) ∧
    (n < 2 ^ s.remWidth → (s.request r).isSome = true → step s = .next { s with inputs := rest, refused := some .idInUse }) ∧
    (n < 2 ^ s.remWidth → s.request r = none → s.device d = none →
      step s = .next { s with inputs := rest, refused := some .noDevice }) ∧
    (2 ^ s.remWidth ≤ n → step s = .refused .countTooWide)

/-- A host write into a buffer in use is admitted, in every lifecycle state, and is what the next read of that byte gives; every
other byte stays (R71; 92 D22). -/
def Obligations.HostWriteReachesBuffer : Prop :=
  ∀ (s : State) (r : ReqId) (k : Nat) (v : Byte) (q : Request) (rest : List Input), s.Running →
    s.inputs = .directive (.bufWrite r k v) :: rest → s.request r = some q → k < q.buf.len →
    ∃ t, step s = .next t ∧ t.readByte r k = some v ∧
      (∀ x j, (x ≠ r ∨ j ≠ k) → t.readByte x j = s.readByte x j) ∧
      (∃ q', t.request r = some q' ∧ { q' with buf := q.buf } = q) ∧
      t = { s with inputs := rest, reqs := t.reqs }

/-! ### INIT (R130 to R137) -/

/-- INIT succeeds where the target is positive, the divider is not negative and fits: the configuration and what the caller gets
are the divider of R132 and PRESCALER, CFG is emitted, the divider register is written and the prescaler select is 0b00. The
checks and the rounding are the spec's own choice (92 D17, D30); the limit 255 is DIV_MAX and the prescaler value 1 is
PRESCALER, the defaults of R10 that log entry 13 takes (92 D18); what the caller gets stands in the model's own field of log
entry 4; the registers are log entries 12, 14. -/
def Obligations.InitConfigures : Prop :=
  ∀ (s : State) (target : Nat), s.Running → s.config = none → 0 < target → 16 * target ≤ s.coreClock →
    (s.coreClock - 16 * target) / (2 * target) ≤ 255 →
    exec (.init target) s = .next { s with
      config := some { divider := (s.coreClock - 16 * target) / (2 * target), prescaler := 1 }
      initResult := some (.ok ((s.coreClock - 16 * target) / (2 * target)) 1)
      trace := s.trace ++ [.cfg ((s.coreClock - 16 * target) / (2 * target)) 1]
      dividerReg := BitVec.ofNat 8 ((s.coreClock - 16 * target) / (2 * target))
      statusReg := s.statusReg &&& 0xFC#8 }

/-- INIT returns CONFIG_ERROR and changes nothing else for a zero target, a target above a tenth of the clock, one that makes
the divider negative, or a divider above DIV_MAX (R133, R135); a second INIT after a successful one is a fault that changes
nothing else (R131; 92 D17). The values it assumes: DIV_MAX is 255, the default of R10 that log entry 13 takes (92 D18), and
PRESCALER 1, of the same entry; the error that INIT returns stands in the model's own field of log entry 4. -/
def Obligations.InitErrorsAndReinit : Prop :=
  ∀ (s : State) (target : Nat), s.Running →
    (s.config = none →
      (target = 0 ∨ s.coreClock < 10 * target ∨ s.coreClock < 16 * target ∨
        255 < (s.coreClock - 16 * target) / (2 * target)) →
      exec (.init target) s = .next { s with initResult := some (.error .configError) }) ∧
    (s.config ≠ none → exec (.init target) s = .next { s with fault := some .reinit })

/-- R136: for every clock, prescaler and divider limit, check (e) decides nothing that (a), (c) and (d) do not, and check (b)
nothing that (c) does not. -/
def Obligations.InitChecksRedundant : Prop :=
  ∀ clock p dm target : Nat, 1 ≤ p →
    (0 < target → 16 * target ≤ clock → dividerFor clock p target ≤ dm →
      initDivider clock p dm target = some (dividerFor clock p target)) ∧
    (clock < 10 * target → clock < 16 * target)

/-- R130: an accepted target's effective frequency is at least the target and at most a tenth of the clock, and the divider
fits; a target of a sixteenth of the clock has divider zero. -/
def Obligations.InitFrequencyBounds : Prop :=
  (∀ clock p dm target d : Nat, initDivider clock p dm target = some d →
    target ≤ effectiveHz clock p d ∧ 10 * effectiveHz clock p d ≤ clock ∧ d ≤ dm) ∧
  ∀ p target : Nat, dividerFor (16 * target) p target = 0

/-- A configuration, once made, is never changed, by any step (R131: "Runs once"; R32: written by INIT only). -/
def Obligations.ConfigurationIsFinal : Prop :=
  ∀ (s t : State) (c : BusConfig), step s = .next t → s.config = some c → t.config = some c

/-! ### SUBMIT (R150 to R158) -/

/-- R152: on an Idle bus a SUBMIT, in either direction, starts the HEAD of the queue, the submitted request itself only where
the queue was empty; the other requests stay queued in their order and the new one goes last. Nothing else changes; the control
register is RegistersFollowTheTrace's. The value it assumes: QUEUE_CAP is unbounded, the default of R10 that log entry 13 takes,
so that no queue length faults before R152 (R24, R151). A head without a record, or equal to the request, is left out:
State.LifeInv excludes both. -/
def Obligations.SubmitStartsHead : Prop :=
  ∀ (s : State) (r : ReqId) (q : Request) (c : BusConfig) (i : Instr) (dir : Direction),
    (i, dir) ∈ [(Instr.submitW r, Direction.write), (.submitR r, .read)] →
    s.Running → s.config = some c → s.request r = some q → q.life = .fresh → s.busState = .idle →
    ∃ t, exec i s = .next t ∧
      (s.queue = [] → t = { s with
        reqs := Table.put s.reqs r { q with dir := dir, life := .current }
        current := some r, busState := .active, armed := true, trace := s.trace ++ [.cmd .start]
        controlReg := t.controlReg }) ∧
      (∀ n rest qn, s.NextUp r n rest qn → t = { s with
        reqs := Table.put (Table.put s.reqs r { q with dir := dir, life := .queued }) n { qn with life := .current }
        queue := rest ++ [r], current := some n, busState := .active, armed := true
        trace := s.trace ++ [.cmd .start]
        controlReg := t.controlReg })

/-- R153: on an Active bus a SUBMIT, in either direction, queues the request and does nothing more. The value it assumes:
QUEUE_CAP is unbounded, the default of R10 that log entry 13 takes, so that no queue length faults before R153 (R24, R151). -/
def Obligations.SubmitQueuesWhileActive : Prop :=
  ∀ (s : State) (r : ReqId) (q : Request) (c : BusConfig) (i : Instr) (dir : Direction),
    (i, dir) ∈ [(Instr.submitW r, Direction.write), (.submitR r, .read)] →
    s.Running → s.config = some c → s.request r = some q → q.life = .fresh → s.busState = .active →
    exec i s = .next { s with
      reqs := Table.put s.reqs r { q with dir := dir, life := .queued }, queue := s.queue ++ [r] }

/-- A SUBMIT before INIT, of an unknown request, or of one that is not Fresh is a fault that changes nothing else, the first
check first (R150; 92 D15). -/
def Obligations.SubmitFaults : Prop :=
  ∀ (s : State) (r : ReqId) (i : Instr), i = .submitW r ∨ i = .submitR r → s.Running →
    (s.config = none → exec i s = .next { s with fault := some .submitBeforeInit }) ∧
    (s.config ≠ none → s.request r = none → exec i s = .next { s with fault := some .reqNotFresh }) ∧
    (∀ q, s.config ≠ none → s.request r = some q → q.life ≠ .fresh →
      exec i s = .next { s with fault := some .reqNotFresh })

/-- R24: a SUBMIT on a queue of a given capacity faults with QUEUE_OVERFLOW exactly if the queue holds that many; with the
default capacity no instruction ever does (92 D16). -/
def Obligations.QueueOverflowNeedsBound : Prop :=
  (∀ (s : State) (cap : Nat) (r : ReqId) (q : Request) (dir : Direction), s.Running → s.config ≠ none →
    s.request r = some q → q.life = .fresh →
    ((∃ t, submit (some cap) r dir s = .next t ∧ t.fault = some .queueOverflow) ↔ cap ≤ s.queue.length)) ∧
  ∀ (i : Instr) (s t : State), exec i s = .next t → t.fault ≠ some .queueOverflow

/-! ### Events: entry, faults, frames -/

/-- An event with no current request is a fault that changes nothing else (R176; 92 D11). -/
def Obligations.EventsNeedCurrent : Prop :=
  ∀ (i : Instr) (s : State), i.isEvent = true → s.Running → s.current = none →
    exec i s = .next { s with fault := some .spuriousEvent }

/-- R176: while the block is armed, and so a request is current, no event is spurious (the arming is 92 D11). -/
def Obligations.ArmedEventsAreExpected : Prop :=
  ∀ (i : Instr) (s t : State), s.ArmedInv → s.armed = true → i.isEvent = true → exec i s = .next t →
    t.fault ≠ some .spuriousEvent

/-- A data ACK at count zero is REM_UNDERFLOW; a transmit read beyond the buffer is BUF_BOUNDS, at the cursor for the first byte
and one beyond it for the next; each changes nothing else, and the count is checked first (R190, R194, R214, R305; 92 D6,
D8). -/
def Obligations.DataArmsFault : Prop :=
  ∀ (s : State) (r : ReqId) (q : Request) (st d : Byte), s.Serving r q →
    (q.remaining = 0 → exec (.evDataAckW st d) s = .next { s with fault := some .remUnderflow } ∧
      exec (.evDataAckR st d) s = .next { s with fault := some .remUnderflow }) ∧
    (0 < q.remaining → q.buf.len ≤ q.cursor →
      exec (.evAddrAckW st d) s = .next { s with fault := some .bufBounds }) ∧
    (1 < q.remaining → q.buf.len ≤ q.cursor + 1 →
      exec (.evDataAckW st d) s = .next { s with fault := some .bufBounds })

/-- The frame of the eleven events: devices, configuration, the refusal mark, what INIT returned, the clock and the count's
width, the inputs and the divider register stay; of the records only the current request's and the queue head's may change, the
head's only in its lifecycle, and no record in its direction, device or buffer length (R45). -/
def Obligations.EventsKeepTheRest : Prop :=
  ∀ (i : Instr) (s t : State), i.isEvent = true → exec i s = .next t →
    t.devs = s.devs ∧ t.config = s.config ∧ t.refused = s.refused ∧ t.initResult = s.initResult ∧
    t.coreClock = s.coreClock ∧ t.remWidth = s.remWidth ∧ t.inputs = s.inputs ∧ t.dividerReg = s.dividerReg ∧
    (∀ x, s.current ≠ some x → s.queue.head? ≠ some x → t.request x = s.request x) ∧
    (∀ x q, s.current ≠ some x → s.request x = some q → ∃ l, t.request x = some { q with life := l }) ∧
    (∀ x q, s.request x = some q →
      ∃ q', t.request x = some q' ∧ q'.dir = q.dir ∧ q'.device = q.device ∧ q'.buf.len = q.buf.len)

/-- Every instruction but the two receive-data arms leaves every byte of every buffer as it was (R61). -/
def Obligations.OnlyReceivesStore : Prop :=
  ∀ (i : Instr) (s t : State), (∀ st d, i ≠ .evDataAckR st d ∧ i ≠ .evDataNackR st d) → exec i s = .next t →
    ∀ x k, t.readByte x k = s.readByte x k

/-- R217: a receive-data arm leaves every byte as it was but the one under the current request's cursor, which is the old byte
or the received one; beyond the buffer nothing is written (the draw is 92 D9, log entry 6). -/
def Obligations.ReceiveStoresAtCursor : Prop :=
  ∀ (i : Instr) (s t : State) (r : ReqId) (q : Request) (st d : Byte), i = .evDataAckR st d ∨ i = .evDataNackR st d →
    s.Serving r q → exec i s = .next t →
    (∀ x k, ¬(x = r ∧ q.storeOffset = some k) → t.readByte x k = s.readByte x k) ∧
    (∀ k, q.storeOffset = some k → t.readByte r k = s.readByte r k ∨ t.readByte r k = some d)

/-- R91, R170: the masked-away status bits and, but in the two receive-data arms, the data byte decide nothing: two events that
differ only there have the same outcome but for what the registers latch. -/
def Obligations.UnusedEventBytesDecideNothing : Prop :=
  (∀ ev ∈ [Instr.evStart, .evRepeatStart, .evAddrAckW, .evAddrNackW, .evDataAckW, .evDataNackW, .evAddrAckR,
      .evAddrNackR, .evOther], ∀ (s : State) (st st' d d' : Byte),
      sameButLatch (exec (ev st d) s) (exec (ev st' d') s)) ∧
  (∀ ev ∈ [Instr.evDataAckR, .evDataNackR], ∀ (s : State) (st st' d : Byte),
      sameButLatch (exec (ev st d) s) (exec (ev st' d) s))

/-! ### Events: results -/

/-- R173: the two START-class events load the address byte of the current request's device and direction, and transmit it.
Nothing else changes; the registers are RegistersFollowTheTrace's. -/
def Obligations.StartArmsSendAddress : Prop :=
  ∀ (s : State) (r : ReqId) (q : Request) (dev : Device) (st d : Byte) (i : Instr),
    i = .evStart st d ∨ i = .evRepeatStart st d → s.Serving r q → s.device q.device = some dev →
    ∃ t, exec i s = .next t ∧ t = { s with
      armed := true
      trace := s.trace ++ [.load ((dev.addr.zeroExtend 8 <<< 1) ||| (match q.dir with | .write => 0#8 | .read => 1#8)),
        .cmd .transmit]
      statusReg := t.statusReg, dataReg := t.dataReg, controlReg := t.controlReg, writeCollision := t.writeCollision }

/-- EV_ADDR_ACK_W with bytes to send loads the byte at the cursor and transmits it; the request is unchanged, and so is all else
but the registers (R190; the registers are RegistersFollowTheTrace's). -/
def Obligations.AddrAckSendsFirstByte : Prop :=
  ∀ (s : State) (r : ReqId) (q : Request) (b st d : Byte), s.Serving r q → 0 < q.remaining →
    q.buf.read q.cursor = some b →
    ∃ t, exec (.evAddrAckW st d) s = .next t ∧ t = { s with
      armed := true, trace := s.trace ++ [.load b, .cmd .transmit]
      statusReg := t.statusReg, dataReg := t.dataReg, controlReg := t.controlReg, writeCollision := t.writeCollision }

/-- EV_DATA_ACK_W with more bytes to send: the count falls, the cursor moves on, and the byte at the new cursor is loaded and
transmitted; nothing else changes but the registers (R194; the registers are RegistersFollowTheTrace's). -/
def Obligations.DataAckSendsNextByte : Prop :=
  ∀ (s : State) (r : ReqId) (q : Request) (b st d : Byte), s.Serving r q → 1 < q.remaining →
    q.buf.read (q.cursor + 1) = some b →
    ∃ t, exec (.evDataAckW st d) s = .next t ∧ t = { s with
      armed := true
      reqs := Table.put s.reqs r { q with remaining := q.remaining - 1, cursor := q.cursor + 1 }
      trace := s.trace ++ [.load b, .cmd .transmit]
      statusReg := t.statusReg, dataReg := t.dataReg, controlReg := t.controlReg, writeCollision := t.writeCollision }

/-- Completion (R235, R236): after the last data ACK, and at the address ACK of a zero-length write (the place of that branch is
92 D7), the callback fires once with no payload and is cleared, the request is released, and the head of the queue is chained
with STOP_START or the bus idles with STOP. Nothing else changes; the registers are RegistersFollowTheTrace's. -/
def Obligations.WritesComplete : Prop :=
  ∀ (s : State) (r : ReqId) (q q' : Request) (st d : Byte) (i : Instr), s.Serving r q →
    (i = .evDataAckW st d ∧ q.remaining = 1 ∧ q' = { q with remaining := 0, cursor := q.cursor + 1 }) ∨
      (i = .evAddrAckW st d ∧ q.remaining = 0 ∧ q' = q) →
    ∃ t, exec i s = .next t ∧
      (s.queue = [] → t = { s with
        armed := false, busState := .idle, current := none
        reqs := Table.put s.reqs r { q' with hasCb := false, life := .released }
        trace := s.trace ++ callbackIf q r none ++ [.release r .ok, .cmd .stop]
        statusReg := t.statusReg, dataReg := t.dataReg, controlReg := t.controlReg }) ∧
      (∀ n rest qn, s.NextUp r n rest qn → t = { s with
        armed := true, current := some n, queue := rest
        reqs := Table.put (Table.put s.reqs r { q' with hasCb := false, life := .released }) n { qn with life := .current }
        trace := s.trace ++ callbackIf q r none ++ [.release r .ok, .cmd .stopStart]
        statusReg := t.statusReg, dataReg := t.dataReg, controlReg := t.controlReg })

/-- R234, in the three events that run NACK-recovery (R192, R195, R212): no callback whatever `has_cb` holds, buffer, cursor and
count untouched, the request released with the event's tag; the head of the queue is chained with STOP_START or the bus idles
with STOP. Nothing else changes; the registers are RegistersFollowTheTrace's. -/
def Obligations.NackRecoveryReleases : Prop :=
  ∀ (s : State) (r : ReqId) (q : Request) (st d : Byte) (i : Instr) (o : Tag), s.Serving r q →
    (i, o) ∈ [(Instr.evAddrNackW st d, Tag.addrNack), (.evAddrNackR st d, .addrNack), (.evDataNackW st d, .dataNack)] →
    ∃ t, exec i s = .next t ∧
      (s.queue = [] → t = { s with
        armed := false, busState := .idle, current := none
        reqs := Table.put s.reqs r { q with life := .released }
        trace := s.trace ++ [.release r o, .cmd .stop]
        statusReg := t.statusReg, dataReg := t.dataReg, controlReg := t.controlReg }) ∧
      (∀ n rest qn, s.NextUp r n rest qn → t = { s with
        armed := true, current := some n, queue := rest
        reqs := Table.put (Table.put s.reqs r { q with life := .released }) n { qn with life := .current }
        trace := s.trace ++ [.release r o, .cmd .stopStart]
        statusReg := t.statusReg, dataReg := t.dataReg, controlReg := t.controlReg })

/-- EV_ADDR_ACK_R with bytes to receive answers ACK, and touches neither the request nor its buffer; nothing else changes but
the registers (R210; the registers are RegistersFollowTheTrace's). -/
def Obligations.AddrAckAsksForByte : Prop :=
  ∀ (s : State) (r : ReqId) (q : Request) (st d : Byte), s.Serving r q → 0 < q.remaining →
    ∃ t, exec (.evAddrAckR st d) s = .next t ∧ t = { s with
      armed := true, trace := s.trace ++ [.cmd .ack]
      statusReg := t.statusReg, dataReg := t.dataReg, controlReg := t.controlReg }

/-- EV_DATA_ACK_R: the count falls, the cursor moves on, the callback fires with the received byte and is not cleared, and the
answer is ACK while the count after the decrement is positive, NACK at zero; nothing else changes but the registers (R214, R215;
the store is the draw of 92 D9, log entry 6; the registers are RegistersFollowTheTrace's). -/
def Obligations.DataAckReceives : Prop :=
  ∀ (s : State) (r : ReqId) (q : Request) (st d : Byte), s.Serving r q → 0 < q.remaining →
    ∃ t v, q.MayHold d v ∧ exec (.evDataAckR st d) s = .next t ∧ t = { s with
      armed := true, draws := t.draws
      reqs := Table.put s.reqs r
        { q with buf := q.bufWith v, remaining := q.remaining - 1, cursor := q.cursor + 1 }
      trace := s.trace ++ callbackIf q r (some d) ++ [.cmd (if 1 < q.remaining then .ack else .nack)]
      statusReg := t.statusReg, dataReg := t.dataReg, controlReg := t.controlReg }

/-- RX-completion (R237): after the final received byte, whose callback has fired, and at the address ACK of a zero-length read
(92 D7), the request is released with no callback of its own, count and cursor unchanged and `has_cb` not cleared; the head of
the queue is chained with STOP_START_RX or the bus idles with STOP_RX. The store is the draw of 92 D9, log entry 6; nothing else
changes; the registers are RegistersFollowTheTrace's. -/
def Obligations.ReadsComplete : Prop :=
  ∀ (s : State) (r : ReqId) (q : Request) (st d : Byte) (i : Instr) (cb : List Action), s.Serving r q →
    (i = .evDataNackR st d ∧ cb = callbackIf q r (some d)) ∨ (i = .evAddrAckR st d ∧ q.remaining = 0 ∧ cb = []) →
    ∃ t buf, exec i s = .next t ∧
      ((i = .evDataNackR st d ∧ ∃ v, q.MayHold d v ∧ buf = q.bufWith v) ∨
        (i = .evAddrAckR st d ∧ buf = q.buf ∧ t.draws = s.draws)) ∧
      (s.queue = [] → t = { s with
        armed := false, busState := .idle, current := none, draws := t.draws
        reqs := Table.put s.reqs r { q with buf := buf, life := .released }
        trace := s.trace ++ cb ++ [.release r .ok, .cmd .stopRx]
        statusReg := t.statusReg, dataReg := t.dataReg, controlReg := t.controlReg }) ∧
      (∀ m rest qm, s.NextUp r m rest qm → t = { s with
        armed := true, current := some m, queue := rest, draws := t.draws
        reqs := Table.put (Table.put s.reqs r { q with buf := buf, life := .released }) m { qm with life := .current }
        trace := s.trace ++ cb ++ [.release r .ok, .cmd .stopStartRx]
        statusReg := t.statusReg, dataReg := t.dataReg, controlReg := t.controlReg })

/-- R240: any other status releases the request as UNEXPECTED, idles the bus and issues STOP; the queue stays as it is, and no
callback fires. Nothing else changes; the registers are RegistersFollowTheTrace's. -/
def Obligations.DefaultArmIdles : Prop :=
  ∀ (s : State) (r : ReqId) (q : Request) (st d : Byte), s.Serving r q →
    ∃ t, exec (.evOther st d) s = .next t ∧ t = { s with
      armed := false, busState := .idle, current := none
      reqs := Table.put s.reqs r { q with life := .released }
      trace := s.trace ++ [.release r .unexpected, .cmd .stop]
      statusReg := t.statusReg, dataReg := t.dataReg, controlReg := t.controlReg }

/-- What the registers hold after an instruction that does not fault: the control register the word of the last command, if it
is the last action; the status register an event's whole S; the data register the byte loaded just before an event's command,
and else the event's D. Of the block's own steps none sets the write-collision flag (R271), and an event's load clears it. The
model's choices: the registers hold what was last written or latched (log entries 10, 12), S with its low bits (log entry 27),
and the clearing (log entry 28). -/
def Obligations.RegistersFollowTheTrace : Prop :=
  ∀ (i : Instr) (s t : State), exec i s = .next t → t.fault = none →
    (∀ pre c, t.trace = s.trace ++ pre ++ [.cmd c] → t.controlReg = Config.ctrlWord c) ∧
    ((∀ pre c, t.trace ≠ s.trace ++ pre ++ [.cmd c]) → t.controlReg = s.controlReg) ∧
    (∀ st d pre c, eventBytes i = some (st, d) → t.trace = s.trace ++ pre ++ [.cmd c] →
      t.statusReg = st ∧ t.dataReg = lastLoaded pre d ∧ t.writeCollision = collisionAfter pre s.writeCollision) ∧
    (i.isEvent = false → (∀ b, i ≠ .load b) → t.writeCollision = s.writeCollision)

/-! ### The register primitives (R260 to R271, R134) -/

/-- Each command, run as a step of its own, is one write of its word of R261 to the control register, and arms the block as the
table of R262 says (92 D4, D11, D13; log entries 10, 15). -/
def Obligations.CommandsWriteAndArm : Prop :=
  ∀ (s : State) (i : Instr) (c : Command) (word : Byte) (arm : Bool), s.Running →
    (i, c, word, arm) ∈ [(Instr.start, Command.start, 0xA5#8, true), (.stop, .stop, 0x95#8, false),
      (.stopStart, .stopStart, 0xB5#8, true), (.ack, .ack, 0xC5#8, true), (.nack, .nack, 0x85#8, true),
      (.transmit, .transmit, 0x85#8, true), (.stopRx, .stopRx, 0x95#8, false),
      (.stopStartRx, .stopStartRx, 0xB5#8, true)] →
    exec i s = .next { s with trace := s.trace ++ [.cmd c], controlReg := word, armed := arm }

/-- LOAD, run as a step of its own, writes the data register, leaves `armed` as it was, and sets the write-collision flag
exactly where no event is pending, which is while the block is not armed (R271; that a pending event is `armed`, that the byte
is written all the same and that another LOAD clears the flag are log entry 28); CFG writes the divider register and the
prescaler select, which is 0b00, 0b01, 0b10, 0b11 for the values 1, 4, 16, 64 and free for any other (R39, R134; log entries 12,
14, 15). -/
def Obligations.LoadAndCfgWriteRegisters : Prop :=
  ∀ s : State, s.Running →
    (∀ b, exec (.load b) s = .next { s with
      trace := s.trace ++ [.load b], dataReg := b, writeCollision := if s.armed then false else true }) ∧
    (∀ (divider : Byte) (p : Nat),
      ∃ sel : BitVec 2, (p = 1 → sel = 0) ∧ (p = 4 → sel = 1) ∧ (p = 16 → sel = 2) ∧ (p = 64 → sel = 3) ∧
        exec (.cfg divider p) s = .next { s with
          trace := s.trace ++ [.cfg divider.toNat p], dividerReg := divider
          statusReg := s.statusReg.extractLsb' 2 6 ++ sel })

/-! ### Whole-machine rules -/

/-- The invariants hold right after reset; of the count's width, a value of the model (log entry 8), only that it is
positive. -/
def Obligations.InvariantsAtReset : Prop :=
  State.reset.Inv ∧ State.reset.ArmedInv ∧ State.reset.CanonicalInv ∧ State.reset.RecordInv ∧
  State.reset.OnlyInputs ∧ State.reset.CountsFit

/-- Every step keeps the block's invariant: Active iff a request is current (R23), the queue holds the Queued requests once each
and the current request is the one Current (R28), every request is released at most once, when it becomes Released (R242), and a
Write callback fires at most once (R236). -/
def Obligations.StepKeepsInv : Prop :=
  ∀ s t : State, s.Inv → step s = .next t → t.Inv

/-- While only the inputs of R90 and the host's directives are still to come, every step keeps it that an event is owed exactly
while a request is current (R31, R175, R176; the arming is 92 D11). -/
def Obligations.StepKeepsArmed : Prop :=
  ∀ s t : State, s.BusInv → s.ArmedInv → s.OnlyInputs → step s = .next t → t.BusInv ∧ t.ArmedInv ∧ t.OnlyInputs

/-- Every step keeps the tables and the buffers in canonical form (log entry 22). -/
def Obligations.StepKeepsCanonical : Prop :=
  ∀ s t : State, s.CanonicalInv → step s = .next t → t.CanonicalInv

/-- Every step keeps it that every request's device has a record (R44), that a configuration fits its registers (R133, R134),
and that at most one sticky mark is set (R305). -/
def Obligations.StepKeepsRecords : Prop :=
  ∀ s t : State, s.RecordInv → step s = .next t → t.RecordInv

/-- Every step keeps it that every request's count lies in `[0, 2^REM_WIDTH - 1]`, whatever inputs come, and keeps the width: no
rule overflows `remaining` (R9, R10; 92 D5; that a wider NEW_REQUEST is refused is log entry 8). -/
def Obligations.StepKeepsCounts : Prop :=
  ∀ s t : State, s.CountsFit → step s = .next t → t.CountsFit ∧ t.remWidth = s.remWidth

/-- R28: a step moves a request's lifecycle only forwards, along the transitions of R28, and changes nothing of a Released
request but its buffer (which steps write into a buffer is OnlyReceivesStore's, ReceiveStoresAtCursor's and
HostWriteReachesBuffer's). -/
def Obligations.LifecycleMovesForward : Prop :=
  ∀ (s t : State) (r : ReqId) (q : Request), s.LifeInv → step s = .next t → s.request r = some q →
    ∃ q', t.request r = some q' ∧ q.life.mayBecome q'.life = true ∧
      (q.life = .released → { q' with buf := q.buf } = q)

/-- R30: no step changes a device's record. -/
def Obligations.DevicesAreImmutable : Prop :=
  ∀ (s t : State) (d : DevId) (dev : Device), step s = .next t → s.device d = some dev → t.device d = some dev

/-- No step loses a request's record, and none changes the sum of its cursor and its count, or moves its cursor back (R25, R193,
R213). -/
def Obligations.CursorAndCountBalance : Prop :=
  ∀ (s t : State) (r : ReqId) (q : Request), step s = .next t → s.request r = some q →
    ∃ q', t.request r = some q' ∧ q'.cursor + q'.remaining = q.cursor + q.remaining ∧ q.cursor ≤ q'.cursor

/-- R21: only a SUBMIT makes the bus Active, and only an event makes it Idle. -/
def Obligations.BusStateHasTwoWriters : Prop :=
  ∀ (i : Instr) (s t : State), exec i s = .next t →
    (s.busState = .idle → t.busState = .active → ∃ r, i = .submitW r ∨ i = .submitR r) ∧
    (s.busState = .active → t.busState = .idle → i.isEvent = true)

/-- R77, R268: an event that does not fault emits exactly one command, last; the command is TRANSMIT exactly if the action
before it is a LOAD, and it arms exactly if a request is current after it. -/
def Obligations.EventsEndInOneCommand : Prop :=
  ∀ (i : Instr) (s t : State), i.isEvent = true → exec i s = .next t → t.fault = none →
    ∃ pre c, t.trace = s.trace ++ pre ++ [.cmd c] ∧ (∀ a ∈ pre, a.isCmd = false) ∧
      (c = .transmit ↔ ∃ b, pre.getLast? = some (.load b)) ∧ (t.armed = true ↔ t.current.isSome = true)

/-- No step takes an action back: the trace only grows (R40). -/
def Obligations.TraceOnlyGrows : Prop :=
  ∀ s t : State, step s = .next t → s.trace <+: t.trace

/-- R78: requests are served in the order of submission. The line of the current request and the queue grows at its end, by a
SUBMIT's request, and shrinks at its front, by an event that ends the current request; nothing else changes it. -/
def Obligations.ServiceIsFifo : Prop :=
  ∀ (i : Instr) (s t : State), s.BusInv → exec i s = .next t → t.fault = none →
    (∀ r, i = .submitW r ∨ i = .submitR r → t.line = s.line ++ [r]) ∧
    (i.isEvent = true → t.line = s.line ∨ ∃ r, s.current = some r ∧ s.line = r :: t.line) ∧
    (i.isEvent = false → (∀ r, i ≠ .submitW r ∧ i ≠ .submitR r) → t.line = s.line)

/-- R193: a write of N ≥ 1 bytes, every one acknowledged, loads the address byte and then the buffer's bytes in order, each
followed by a TRANSMIT, and completes: N data loads, N + 1 TRANSMITs, one terminal command; the cursor has moved N on and the
count is zero. -/
def Obligations.WriteTransferShape : Prop :=
  ∀ (s : State) (r : ReqId) (q : Request) (dev : Device) (bytes : List Byte) (st d : Byte), s.Serving r q →
    s.device q.device = some dev → bytes.length = q.remaining → 0 < q.remaining →
    (∀ k, k < bytes.length → q.buf.read (q.cursor + k) = bytes[k]?) → s.queue.head? ≠ some r →
    ∃ t, execAll (.evStart st d :: .evAddrAckW st d :: List.replicate bytes.length (.evDataAckW st d)) s = .next t ∧
      t.trace = s.trace ++ [.load (addrByte dev.addr q.dir), .cmd .transmit] ++
        bytes.flatMap (fun b => [.load b, .cmd .transmit]) ++ callbackIf q r none ++
        [.release r .ok, .cmd (if s.queue = [] then .stop else .stopStart)] ∧
      t.request r = some { q with
        cursor := q.cursor + bytes.length, remaining := 0, hasCb := false, life := .released }

/-- R213: a read of N ≥ 1 receives N + 1 bytes: an ACK after the address and after each of the first N - 1 bytes, a NACK after
the N-th, and RX-completion after the last; with a callback it fires for every byte, in order. -/
def Obligations.ReadTransferShape : Prop :=
  ∀ (s : State) (r : ReqId) (q : Request) (first : List Byte) (lastButOne last : Byte) (st d : Byte), s.Serving r q →
    q.remaining = first.length + 1 → s.queue.head? ≠ some r →
    ∃ t, execAll (.evAddrAckR st d ::
        (first.map (.evDataAckR st) ++ [.evDataAckR st lastButOne, .evDataNackR st last])) s = .next t ∧
      t.trace = s.trace ++ [.cmd .ack] ++ first.flatMap (fun b => callbackIf q r (some b) ++ [.cmd .ack]) ++
        (callbackIf q r (some lastButOne) ++ [.cmd .nack]) ++ callbackIf q r (some last) ++
        [.release r .ok, .cmd (if s.queue = [] then .stopRx else .stopStartRx)] ∧
      ∃ q', t.request r = some q' ∧ q'.cursor = q.cursor + q.remaining ∧ q'.remaining = 0 ∧ q'.hasCb = q.hasCb ∧
        q'.life = .released
end

