-- ==== Sys2Proof/Laws/State.lean ====
section
/-! SUPPORT. What every update of the state does to every field, so that no proof unfolds a record update. -/

namespace Sys2Proof.Machine

/-! ### emit -/

@[simp] theorem State.emit_busState (s : State) (a : Action) : (s.emit a).busState = s.busState := rfl
@[simp] theorem State.emit_current (s : State) (a : Action) : (s.emit a).current = s.current := rfl
@[simp] theorem State.emit_queue (s : State) (a : Action) : (s.emit a).queue = s.queue := rfl
@[simp] theorem State.emit_reqs (s : State) (a : Action) : (s.emit a).reqs = s.reqs := rfl
@[simp] theorem State.emit_devs (s : State) (a : Action) : (s.emit a).devs = s.devs := rfl
@[simp] theorem State.emit_config (s : State) (a : Action) : (s.emit a).config = s.config := rfl
@[simp] theorem State.emit_armed (s : State) (a : Action) : (s.emit a).armed = s.armed := rfl
@[simp] theorem State.emit_fault (s : State) (a : Action) : (s.emit a).fault = s.fault := rfl
@[simp] theorem State.emit_refused (s : State) (a : Action) : (s.emit a).refused = s.refused := rfl
@[simp] theorem State.emit_controlReg (s : State) (a : Action) : (s.emit a).controlReg = s.controlReg := rfl
@[simp] theorem State.emit_writeCollision (s : State) (a : Action) : (s.emit a).writeCollision = s.writeCollision := rfl
@[simp] theorem State.emit_statusReg (s : State) (a : Action) : (s.emit a).statusReg = s.statusReg := rfl
@[simp] theorem State.emit_dataReg (s : State) (a : Action) : (s.emit a).dataReg = s.dataReg := rfl
@[simp] theorem State.emit_dividerReg (s : State) (a : Action) : (s.emit a).dividerReg = s.dividerReg := rfl
@[simp] theorem State.emit_trace (s : State) (a : Action) : (s.emit a).trace = s.trace ++ [a] := rfl
@[simp] theorem State.emit_coreClock (s : State) (a : Action) : (s.emit a).coreClock = s.coreClock := rfl
@[simp] theorem State.emit_remWidth (s : State) (a : Action) : (s.emit a).remWidth = s.remWidth := rfl
@[simp] theorem State.emit_initResult (s : State) (a : Action) : (s.emit a).initResult = s.initResult := rfl
@[simp] theorem State.emit_inputs (s : State) (a : Action) : (s.emit a).inputs = s.inputs := rfl
@[simp] theorem State.emit_draws (s : State) (a : Action) : (s.emit a).draws = s.draws := rfl

/-! ### command -/

@[simp] theorem State.command_busState (s : State) (c : Command) : (s.command c).busState = s.busState := rfl
@[simp] theorem State.command_current (s : State) (c : Command) : (s.command c).current = s.current := rfl
@[simp] theorem State.command_queue (s : State) (c : Command) : (s.command c).queue = s.queue := rfl
@[simp] theorem State.command_reqs (s : State) (c : Command) : (s.command c).reqs = s.reqs := rfl
@[simp] theorem State.command_devs (s : State) (c : Command) : (s.command c).devs = s.devs := rfl
@[simp] theorem State.command_config (s : State) (c : Command) : (s.command c).config = s.config := rfl
@[simp] theorem State.command_armed (s : State) (c : Command) : (s.command c).armed = arms c := rfl
@[simp] theorem State.command_fault (s : State) (c : Command) : (s.command c).fault = s.fault := rfl
@[simp] theorem State.command_refused (s : State) (c : Command) : (s.command c).refused = s.refused := rfl
@[simp] theorem State.command_controlReg (s : State) (c : Command) : (s.command c).controlReg = Config.ctrlWord c := rfl
@[simp] theorem State.command_writeCollision (s : State) (c : Command) : (s.command c).writeCollision = s.writeCollision := rfl
@[simp] theorem State.command_statusReg (s : State) (c : Command) : (s.command c).statusReg = s.statusReg := rfl
@[simp] theorem State.command_dataReg (s : State) (c : Command) : (s.command c).dataReg = s.dataReg := rfl
@[simp] theorem State.command_dividerReg (s : State) (c : Command) : (s.command c).dividerReg = s.dividerReg := rfl
@[simp] theorem State.command_trace (s : State) (c : Command) : (s.command c).trace = s.trace ++ [.cmd c] := rfl
@[simp] theorem State.command_coreClock (s : State) (c : Command) : (s.command c).coreClock = s.coreClock := rfl
@[simp] theorem State.command_remWidth (s : State) (c : Command) : (s.command c).remWidth = s.remWidth := rfl
@[simp] theorem State.command_initResult (s : State) (c : Command) : (s.command c).initResult = s.initResult := rfl
@[simp] theorem State.command_inputs (s : State) (c : Command) : (s.command c).inputs = s.inputs := rfl
@[simp] theorem State.command_draws (s : State) (c : Command) : (s.command c).draws = s.draws := rfl

/-! ### load -/

@[simp] theorem State.load_busState (s : State) (b : Byte) : (s.load b).busState = s.busState := rfl
@[simp] theorem State.load_current (s : State) (b : Byte) : (s.load b).current = s.current := rfl
@[simp] theorem State.load_queue (s : State) (b : Byte) : (s.load b).queue = s.queue := rfl
@[simp] theorem State.load_reqs (s : State) (b : Byte) : (s.load b).reqs = s.reqs := rfl
@[simp] theorem State.load_devs (s : State) (b : Byte) : (s.load b).devs = s.devs := rfl
@[simp] theorem State.load_config (s : State) (b : Byte) : (s.load b).config = s.config := rfl
@[simp] theorem State.load_armed (s : State) (b : Byte) : (s.load b).armed = s.armed := rfl
@[simp] theorem State.load_fault (s : State) (b : Byte) : (s.load b).fault = s.fault := rfl
@[simp] theorem State.load_refused (s : State) (b : Byte) : (s.load b).refused = s.refused := rfl
@[simp] theorem State.load_controlReg (s : State) (b : Byte) : (s.load b).controlReg = s.controlReg := rfl
@[simp] theorem State.load_writeCollision (s : State) (b : Byte) : (s.load b).writeCollision = false := rfl
@[simp] theorem State.load_statusReg (s : State) (b : Byte) : (s.load b).statusReg = s.statusReg := rfl
@[simp] theorem State.load_dataReg (s : State) (b : Byte) : (s.load b).dataReg = b := rfl
@[simp] theorem State.load_dividerReg (s : State) (b : Byte) : (s.load b).dividerReg = s.dividerReg := rfl
@[simp] theorem State.load_trace (s : State) (b : Byte) : (s.load b).trace = s.trace ++ [.load b] := rfl
@[simp] theorem State.load_coreClock (s : State) (b : Byte) : (s.load b).coreClock = s.coreClock := rfl
@[simp] theorem State.load_remWidth (s : State) (b : Byte) : (s.load b).remWidth = s.remWidth := rfl
@[simp] theorem State.load_initResult (s : State) (b : Byte) : (s.load b).initResult = s.initResult := rfl
@[simp] theorem State.load_inputs (s : State) (b : Byte) : (s.load b).inputs = s.inputs := rfl
@[simp] theorem State.load_draws (s : State) (b : Byte) : (s.load b).draws = s.draws := rfl

/-! ### loadOutsideEvent -/

@[simp] theorem State.loadOutsideEvent_busState (s : State) (b : Byte) : (s.loadOutsideEvent b).busState = s.busState := rfl
@[simp] theorem State.loadOutsideEvent_current (s : State) (b : Byte) : (s.loadOutsideEvent b).current = s.current := rfl
@[simp] theorem State.loadOutsideEvent_queue (s : State) (b : Byte) : (s.loadOutsideEvent b).queue = s.queue := rfl
@[simp] theorem State.loadOutsideEvent_reqs (s : State) (b : Byte) : (s.loadOutsideEvent b).reqs = s.reqs := rfl
@[simp] theorem State.loadOutsideEvent_devs (s : State) (b : Byte) : (s.loadOutsideEvent b).devs = s.devs := rfl
@[simp] theorem State.loadOutsideEvent_config (s : State) (b : Byte) : (s.loadOutsideEvent b).config = s.config := rfl
@[simp] theorem State.loadOutsideEvent_armed (s : State) (b : Byte) : (s.loadOutsideEvent b).armed = s.armed := rfl
@[simp] theorem State.loadOutsideEvent_fault (s : State) (b : Byte) : (s.loadOutsideEvent b).fault = s.fault := rfl
@[simp] theorem State.loadOutsideEvent_refused (s : State) (b : Byte) : (s.loadOutsideEvent b).refused = s.refused := rfl
@[simp] theorem State.loadOutsideEvent_controlReg (s : State) (b : Byte) : (s.loadOutsideEvent b).controlReg = s.controlReg := rfl
@[simp] theorem State.loadOutsideEvent_writeCollision (s : State) (b : Byte) : (s.loadOutsideEvent b).writeCollision = !s.armed := rfl
@[simp] theorem State.loadOutsideEvent_statusReg (s : State) (b : Byte) : (s.loadOutsideEvent b).statusReg = s.statusReg := rfl
@[simp] theorem State.loadOutsideEvent_dataReg (s : State) (b : Byte) : (s.loadOutsideEvent b).dataReg = b := rfl
@[simp] theorem State.loadOutsideEvent_dividerReg (s : State) (b : Byte) : (s.loadOutsideEvent b).dividerReg = s.dividerReg := rfl
@[simp] theorem State.loadOutsideEvent_trace (s : State) (b : Byte) : (s.loadOutsideEvent b).trace = s.trace ++ [.load b] := rfl
@[simp] theorem State.loadOutsideEvent_coreClock (s : State) (b : Byte) : (s.loadOutsideEvent b).coreClock = s.coreClock := rfl
@[simp] theorem State.loadOutsideEvent_remWidth (s : State) (b : Byte) : (s.loadOutsideEvent b).remWidth = s.remWidth := rfl
@[simp] theorem State.loadOutsideEvent_initResult (s : State) (b : Byte) : (s.loadOutsideEvent b).initResult = s.initResult := rfl
@[simp] theorem State.loadOutsideEvent_inputs (s : State) (b : Byte) : (s.loadOutsideEvent b).inputs = s.inputs := rfl
@[simp] theorem State.loadOutsideEvent_draws (s : State) (b : Byte) : (s.loadOutsideEvent b).draws = s.draws := rfl

/-! ### callback -/

@[simp] theorem State.callback_busState (s : State) (r : ReqId) (p : Option Byte) : (s.callback r p).busState = s.busState := rfl
@[simp] theorem State.callback_current (s : State) (r : ReqId) (p : Option Byte) : (s.callback r p).current = s.current := rfl
@[simp] theorem State.callback_queue (s : State) (r : ReqId) (p : Option Byte) : (s.callback r p).queue = s.queue := rfl
@[simp] theorem State.callback_reqs (s : State) (r : ReqId) (p : Option Byte) : (s.callback r p).reqs = s.reqs := rfl
@[simp] theorem State.callback_devs (s : State) (r : ReqId) (p : Option Byte) : (s.callback r p).devs = s.devs := rfl
@[simp] theorem State.callback_config (s : State) (r : ReqId) (p : Option Byte) : (s.callback r p).config = s.config := rfl
@[simp] theorem State.callback_armed (s : State) (r : ReqId) (p : Option Byte) : (s.callback r p).armed = s.armed := rfl
@[simp] theorem State.callback_fault (s : State) (r : ReqId) (p : Option Byte) : (s.callback r p).fault = s.fault := rfl
@[simp] theorem State.callback_refused (s : State) (r : ReqId) (p : Option Byte) : (s.callback r p).refused = s.refused := rfl
@[simp] theorem State.callback_controlReg (s : State) (r : ReqId) (p : Option Byte) : (s.callback r p).controlReg = s.controlReg := rfl
@[simp] theorem State.callback_writeCollision (s : State) (r : ReqId) (p : Option Byte) : (s.callback r p).writeCollision = s.writeCollision := rfl
@[simp] theorem State.callback_statusReg (s : State) (r : ReqId) (p : Option Byte) : (s.callback r p).statusReg = s.statusReg := rfl
@[simp] theorem State.callback_dataReg (s : State) (r : ReqId) (p : Option Byte) : (s.callback r p).dataReg = s.dataReg := rfl
@[simp] theorem State.callback_dividerReg (s : State) (r : ReqId) (p : Option Byte) : (s.callback r p).dividerReg = s.dividerReg := rfl
@[simp] theorem State.callback_trace (s : State) (r : ReqId) (p : Option Byte) : (s.callback r p).trace = s.trace ++ [.callback r p] := rfl
@[simp] theorem State.callback_coreClock (s : State) (r : ReqId) (p : Option Byte) : (s.callback r p).coreClock = s.coreClock := rfl
@[simp] theorem State.callback_remWidth (s : State) (r : ReqId) (p : Option Byte) : (s.callback r p).remWidth = s.remWidth := rfl
@[simp] theorem State.callback_initResult (s : State) (r : ReqId) (p : Option Byte) : (s.callback r p).initResult = s.initResult := rfl
@[simp] theorem State.callback_inputs (s : State) (r : ReqId) (p : Option Byte) : (s.callback r p).inputs = s.inputs := rfl
@[simp] theorem State.callback_draws (s : State) (r : ReqId) (p : Option Byte) : (s.callback r p).draws = s.draws := rfl

/-! ### release -/

@[simp] theorem State.release_busState (s : State) (r : ReqId) (o : Tag) : (s.release r o).busState = s.busState := rfl
@[simp] theorem State.release_current (s : State) (r : ReqId) (o : Tag) : (s.release r o).current = s.current := rfl
@[simp] theorem State.release_queue (s : State) (r : ReqId) (o : Tag) : (s.release r o).queue = s.queue := rfl
@[simp] theorem State.release_reqs (s : State) (r : ReqId) (o : Tag) : (s.release r o).reqs = s.reqs := rfl
@[simp] theorem State.release_devs (s : State) (r : ReqId) (o : Tag) : (s.release r o).devs = s.devs := rfl
@[simp] theorem State.release_config (s : State) (r : ReqId) (o : Tag) : (s.release r o).config = s.config := rfl
@[simp] theorem State.release_armed (s : State) (r : ReqId) (o : Tag) : (s.release r o).armed = s.armed := rfl
@[simp] theorem State.release_fault (s : State) (r : ReqId) (o : Tag) : (s.release r o).fault = s.fault := rfl
@[simp] theorem State.release_refused (s : State) (r : ReqId) (o : Tag) : (s.release r o).refused = s.refused := rfl
@[simp] theorem State.release_controlReg (s : State) (r : ReqId) (o : Tag) : (s.release r o).controlReg = s.controlReg := rfl
@[simp] theorem State.release_writeCollision (s : State) (r : ReqId) (o : Tag) : (s.release r o).writeCollision = s.writeCollision := rfl
@[simp] theorem State.release_statusReg (s : State) (r : ReqId) (o : Tag) : (s.release r o).statusReg = s.statusReg := rfl
@[simp] theorem State.release_dataReg (s : State) (r : ReqId) (o : Tag) : (s.release r o).dataReg = s.dataReg := rfl
@[simp] theorem State.release_dividerReg (s : State) (r : ReqId) (o : Tag) : (s.release r o).dividerReg = s.dividerReg := rfl
@[simp] theorem State.release_trace (s : State) (r : ReqId) (o : Tag) : (s.release r o).trace = s.trace ++ [.release r o] := rfl
@[simp] theorem State.release_coreClock (s : State) (r : ReqId) (o : Tag) : (s.release r o).coreClock = s.coreClock := rfl
@[simp] theorem State.release_remWidth (s : State) (r : ReqId) (o : Tag) : (s.release r o).remWidth = s.remWidth := rfl
@[simp] theorem State.release_initResult (s : State) (r : ReqId) (o : Tag) : (s.release r o).initResult = s.initResult := rfl
@[simp] theorem State.release_inputs (s : State) (r : ReqId) (o : Tag) : (s.release r o).inputs = s.inputs := rfl
@[simp] theorem State.release_draws (s : State) (r : ReqId) (o : Tag) : (s.release r o).draws = s.draws := rfl

/-! ### setRequest -/

@[simp] theorem State.setRequest_busState (s : State) (r : ReqId) (q : Request) : (s.setRequest r q).busState = s.busState := rfl
@[simp] theorem State.setRequest_current (s : State) (r : ReqId) (q : Request) : (s.setRequest r q).current = s.current := rfl
@[simp] theorem State.setRequest_queue (s : State) (r : ReqId) (q : Request) : (s.setRequest r q).queue = s.queue := rfl
@[simp] theorem State.setRequest_reqs (s : State) (r : ReqId) (q : Request) : (s.setRequest r q).reqs = Table.put s.reqs r q := rfl
@[simp] theorem State.setRequest_devs (s : State) (r : ReqId) (q : Request) : (s.setRequest r q).devs = s.devs := rfl
@[simp] theorem State.setRequest_config (s : State) (r : ReqId) (q : Request) : (s.setRequest r q).config = s.config := rfl
@[simp] theorem State.setRequest_armed (s : State) (r : ReqId) (q : Request) : (s.setRequest r q).armed = s.armed := rfl
@[simp] theorem State.setRequest_fault (s : State) (r : ReqId) (q : Request) : (s.setRequest r q).fault = s.fault := rfl
@[simp] theorem State.setRequest_refused (s : State) (r : ReqId) (q : Request) : (s.setRequest r q).refused = s.refused := rfl
@[simp] theorem State.setRequest_controlReg (s : State) (r : ReqId) (q : Request) : (s.setRequest r q).controlReg = s.controlReg := rfl
@[simp] theorem State.setRequest_writeCollision (s : State) (r : ReqId) (q : Request) : (s.setRequest r q).writeCollision = s.writeCollision := rfl
@[simp] theorem State.setRequest_statusReg (s : State) (r : ReqId) (q : Request) : (s.setRequest r q).statusReg = s.statusReg := rfl
@[simp] theorem State.setRequest_dataReg (s : State) (r : ReqId) (q : Request) : (s.setRequest r q).dataReg = s.dataReg := rfl
@[simp] theorem State.setRequest_dividerReg (s : State) (r : ReqId) (q : Request) : (s.setRequest r q).dividerReg = s.dividerReg := rfl
@[simp] theorem State.setRequest_trace (s : State) (r : ReqId) (q : Request) : (s.setRequest r q).trace = s.trace := rfl
@[simp] theorem State.setRequest_coreClock (s : State) (r : ReqId) (q : Request) : (s.setRequest r q).coreClock = s.coreClock := rfl
@[simp] theorem State.setRequest_remWidth (s : State) (r : ReqId) (q : Request) : (s.setRequest r q).remWidth = s.remWidth := rfl
@[simp] theorem State.setRequest_initResult (s : State) (r : ReqId) (q : Request) : (s.setRequest r q).initResult = s.initResult := rfl
@[simp] theorem State.setRequest_inputs (s : State) (r : ReqId) (q : Request) : (s.setRequest r q).inputs = s.inputs := rfl
@[simp] theorem State.setRequest_draws (s : State) (r : ReqId) (q : Request) : (s.setRequest r q).draws = s.draws := rfl

/-! ### raise -/

@[simp] theorem State.raise_busState (s : State) (f : Fault) : (s.raise f).busState = s.busState := rfl
@[simp] theorem State.raise_current (s : State) (f : Fault) : (s.raise f).current = s.current := rfl
@[simp] theorem State.raise_queue (s : State) (f : Fault) : (s.raise f).queue = s.queue := rfl
@[simp] theorem State.raise_reqs (s : State) (f : Fault) : (s.raise f).reqs = s.reqs := rfl
@[simp] theorem State.raise_devs (s : State) (f : Fault) : (s.raise f).devs = s.devs := rfl
@[simp] theorem State.raise_config (s : State) (f : Fault) : (s.raise f).config = s.config := rfl
@[simp] theorem State.raise_armed (s : State) (f : Fault) : (s.raise f).armed = s.armed := rfl
@[simp] theorem State.raise_fault (s : State) (f : Fault) : (s.raise f).fault = some f := rfl
@[simp] theorem State.raise_refused (s : State) (f : Fault) : (s.raise f).refused = s.refused := rfl
@[simp] theorem State.raise_controlReg (s : State) (f : Fault) : (s.raise f).controlReg = s.controlReg := rfl
@[simp] theorem State.raise_writeCollision (s : State) (f : Fault) : (s.raise f).writeCollision = s.writeCollision := rfl
@[simp] theorem State.raise_statusReg (s : State) (f : Fault) : (s.raise f).statusReg = s.statusReg := rfl
@[simp] theorem State.raise_dataReg (s : State) (f : Fault) : (s.raise f).dataReg = s.dataReg := rfl
@[simp] theorem State.raise_dividerReg (s : State) (f : Fault) : (s.raise f).dividerReg = s.dividerReg := rfl
@[simp] theorem State.raise_trace (s : State) (f : Fault) : (s.raise f).trace = s.trace := rfl
@[simp] theorem State.raise_coreClock (s : State) (f : Fault) : (s.raise f).coreClock = s.coreClock := rfl
@[simp] theorem State.raise_remWidth (s : State) (f : Fault) : (s.raise f).remWidth = s.remWidth := rfl
@[simp] theorem State.raise_initResult (s : State) (f : Fault) : (s.raise f).initResult = s.initResult := rfl
@[simp] theorem State.raise_inputs (s : State) (f : Fault) : (s.raise f).inputs = s.inputs := rfl
@[simp] theorem State.raise_draws (s : State) (f : Fault) : (s.raise f).draws = s.draws := rfl

/-! ### refuse -/

@[simp] theorem State.refuse_busState (s : State) (x : RefuseReason) : (s.refuse x).busState = s.busState := rfl
@[simp] theorem State.refuse_current (s : State) (x : RefuseReason) : (s.refuse x).current = s.current := rfl
@[simp] theorem State.refuse_queue (s : State) (x : RefuseReason) : (s.refuse x).queue = s.queue := rfl
@[simp] theorem State.refuse_reqs (s : State) (x : RefuseReason) : (s.refuse x).reqs = s.reqs := rfl
@[simp] theorem State.refuse_devs (s : State) (x : RefuseReason) : (s.refuse x).devs = s.devs := rfl
@[simp] theorem State.refuse_config (s : State) (x : RefuseReason) : (s.refuse x).config = s.config := rfl
@[simp] theorem State.refuse_armed (s : State) (x : RefuseReason) : (s.refuse x).armed = s.armed := rfl
@[simp] theorem State.refuse_fault (s : State) (x : RefuseReason) : (s.refuse x).fault = s.fault := rfl
@[simp] theorem State.refuse_refused (s : State) (x : RefuseReason) : (s.refuse x).refused = some x := rfl
@[simp] theorem State.refuse_controlReg (s : State) (x : RefuseReason) : (s.refuse x).controlReg = s.controlReg := rfl
@[simp] theorem State.refuse_writeCollision (s : State) (x : RefuseReason) : (s.refuse x).writeCollision = s.writeCollision := rfl
@[simp] theorem State.refuse_statusReg (s : State) (x : RefuseReason) : (s.refuse x).statusReg = s.statusReg := rfl
@[simp] theorem State.refuse_dataReg (s : State) (x : RefuseReason) : (s.refuse x).dataReg = s.dataReg := rfl
@[simp] theorem State.refuse_dividerReg (s : State) (x : RefuseReason) : (s.refuse x).dividerReg = s.dividerReg := rfl
@[simp] theorem State.refuse_trace (s : State) (x : RefuseReason) : (s.refuse x).trace = s.trace := rfl
@[simp] theorem State.refuse_coreClock (s : State) (x : RefuseReason) : (s.refuse x).coreClock = s.coreClock := rfl
@[simp] theorem State.refuse_remWidth (s : State) (x : RefuseReason) : (s.refuse x).remWidth = s.remWidth := rfl
@[simp] theorem State.refuse_initResult (s : State) (x : RefuseReason) : (s.refuse x).initResult = s.initResult := rfl
@[simp] theorem State.refuse_inputs (s : State) (x : RefuseReason) : (s.refuse x).inputs = s.inputs := rfl
@[simp] theorem State.refuse_draws (s : State) (x : RefuseReason) : (s.refuse x).draws = s.draws := rfl

/-! ### latch -/

@[simp] theorem State.latch_busState (s : State) (st d : Byte) : (s.latch st d).busState = s.busState := rfl
@[simp] theorem State.latch_current (s : State) (st d : Byte) : (s.latch st d).current = s.current := rfl
@[simp] theorem State.latch_queue (s : State) (st d : Byte) : (s.latch st d).queue = s.queue := rfl
@[simp] theorem State.latch_reqs (s : State) (st d : Byte) : (s.latch st d).reqs = s.reqs := rfl
@[simp] theorem State.latch_devs (s : State) (st d : Byte) : (s.latch st d).devs = s.devs := rfl
@[simp] theorem State.latch_config (s : State) (st d : Byte) : (s.latch st d).config = s.config := rfl
@[simp] theorem State.latch_armed (s : State) (st d : Byte) : (s.latch st d).armed = false := rfl
@[simp] theorem State.latch_fault (s : State) (st d : Byte) : (s.latch st d).fault = s.fault := rfl
@[simp] theorem State.latch_refused (s : State) (st d : Byte) : (s.latch st d).refused = s.refused := rfl
@[simp] theorem State.latch_controlReg (s : State) (st d : Byte) : (s.latch st d).controlReg = s.controlReg := rfl
@[simp] theorem State.latch_writeCollision (s : State) (st d : Byte) : (s.latch st d).writeCollision = s.writeCollision := rfl
@[simp] theorem State.latch_statusReg (s : State) (st d : Byte) : (s.latch st d).statusReg = st := rfl
@[simp] theorem State.latch_dataReg (s : State) (st d : Byte) : (s.latch st d).dataReg = d := rfl
@[simp] theorem State.latch_dividerReg (s : State) (st d : Byte) : (s.latch st d).dividerReg = s.dividerReg := rfl
@[simp] theorem State.latch_trace (s : State) (st d : Byte) : (s.latch st d).trace = s.trace := rfl
@[simp] theorem State.latch_coreClock (s : State) (st d : Byte) : (s.latch st d).coreClock = s.coreClock := rfl
@[simp] theorem State.latch_remWidth (s : State) (st d : Byte) : (s.latch st d).remWidth = s.remWidth := rfl
@[simp] theorem State.latch_initResult (s : State) (st d : Byte) : (s.latch st d).initResult = s.initResult := rfl
@[simp] theorem State.latch_inputs (s : State) (st d : Byte) : (s.latch st d).inputs = s.inputs := rfl
@[simp] theorem State.latch_draws (s : State) (st d : Byte) : (s.latch st d).draws = s.draws := rfl

/-! ### writeConfig -/

@[simp] theorem State.writeConfig_busState (s : State) (d p : Nat) : (s.writeConfig d p).busState = s.busState := rfl
@[simp] theorem State.writeConfig_current (s : State) (d p : Nat) : (s.writeConfig d p).current = s.current := rfl
@[simp] theorem State.writeConfig_queue (s : State) (d p : Nat) : (s.writeConfig d p).queue = s.queue := rfl
@[simp] theorem State.writeConfig_reqs (s : State) (d p : Nat) : (s.writeConfig d p).reqs = s.reqs := rfl
@[simp] theorem State.writeConfig_devs (s : State) (d p : Nat) : (s.writeConfig d p).devs = s.devs := rfl
@[simp] theorem State.writeConfig_config (s : State) (d p : Nat) : (s.writeConfig d p).config = s.config := rfl
@[simp] theorem State.writeConfig_armed (s : State) (d p : Nat) : (s.writeConfig d p).armed = s.armed := rfl
@[simp] theorem State.writeConfig_fault (s : State) (d p : Nat) : (s.writeConfig d p).fault = s.fault := rfl
@[simp] theorem State.writeConfig_refused (s : State) (d p : Nat) : (s.writeConfig d p).refused = s.refused := rfl
@[simp] theorem State.writeConfig_controlReg (s : State) (d p : Nat) : (s.writeConfig d p).controlReg = s.controlReg := rfl
@[simp] theorem State.writeConfig_writeCollision (s : State) (d p : Nat) : (s.writeConfig d p).writeCollision = s.writeCollision := rfl
@[simp] theorem State.writeConfig_statusReg (s : State) (d p : Nat) : (s.writeConfig d p).statusReg = withPrescalerSelect s.statusReg (Config.prescalerSelect p) := rfl
@[simp] theorem State.writeConfig_dataReg (s : State) (d p : Nat) : (s.writeConfig d p).dataReg = s.dataReg := rfl
@[simp] theorem State.writeConfig_dividerReg (s : State) (d p : Nat) : (s.writeConfig d p).dividerReg = BitVec.ofNat 8 d := rfl
@[simp] theorem State.writeConfig_trace (s : State) (d p : Nat) : (s.writeConfig d p).trace = s.trace ++ [.cfg d p] := rfl
@[simp] theorem State.writeConfig_coreClock (s : State) (d p : Nat) : (s.writeConfig d p).coreClock = s.coreClock := rfl
@[simp] theorem State.writeConfig_remWidth (s : State) (d p : Nat) : (s.writeConfig d p).remWidth = s.remWidth := rfl
@[simp] theorem State.writeConfig_initResult (s : State) (d p : Nat) : (s.writeConfig d p).initResult = s.initResult := rfl
@[simp] theorem State.writeConfig_inputs (s : State) (d p : Nat) : (s.writeConfig d p).inputs = s.inputs := rfl
@[simp] theorem State.writeConfig_draws (s : State) (d p : Nat) : (s.writeConfig d p).draws = s.draws := rfl

/-! ### enqueue -/

@[simp] theorem State.enqueue_busState (s : State) (r : ReqId) (q : Request) (dir : Direction) : (s.enqueue r q dir).busState = s.busState := rfl
@[simp] theorem State.enqueue_current (s : State) (r : ReqId) (q : Request) (dir : Direction) : (s.enqueue r q dir).current = s.current := rfl
@[simp] theorem State.enqueue_queue (s : State) (r : ReqId) (q : Request) (dir : Direction) : (s.enqueue r q dir).queue = s.queue ++ [r] := rfl
@[simp] theorem State.enqueue_reqs (s : State) (r : ReqId) (q : Request) (dir : Direction) : (s.enqueue r q dir).reqs = Table.put s.reqs r { q with dir := dir, life := .queued } := rfl
@[simp] theorem State.enqueue_devs (s : State) (r : ReqId) (q : Request) (dir : Direction) : (s.enqueue r q dir).devs = s.devs := rfl
@[simp] theorem State.enqueue_config (s : State) (r : ReqId) (q : Request) (dir : Direction) : (s.enqueue r q dir).config = s.config := rfl
@[simp] theorem State.enqueue_armed (s : State) (r : ReqId) (q : Request) (dir : Direction) : (s.enqueue r q dir).armed = s.armed := rfl
@[simp] theorem State.enqueue_fault (s : State) (r : ReqId) (q : Request) (dir : Direction) : (s.enqueue r q dir).fault = s.fault := rfl
@[simp] theorem State.enqueue_refused (s : State) (r : ReqId) (q : Request) (dir : Direction) : (s.enqueue r q dir).refused = s.refused := rfl
@[simp] theorem State.enqueue_controlReg (s : State) (r : ReqId) (q : Request) (dir : Direction) : (s.enqueue r q dir).controlReg = s.controlReg := rfl
@[simp] theorem State.enqueue_writeCollision (s : State) (r : ReqId) (q : Request) (dir : Direction) : (s.enqueue r q dir).writeCollision = s.writeCollision := rfl
@[simp] theorem State.enqueue_statusReg (s : State) (r : ReqId) (q : Request) (dir : Direction) : (s.enqueue r q dir).statusReg = s.statusReg := rfl
@[simp] theorem State.enqueue_dataReg (s : State) (r : ReqId) (q : Request) (dir : Direction) : (s.enqueue r q dir).dataReg = s.dataReg := rfl
@[simp] theorem State.enqueue_dividerReg (s : State) (r : ReqId) (q : Request) (dir : Direction) : (s.enqueue r q dir).dividerReg = s.dividerReg := rfl
@[simp] theorem State.enqueue_trace (s : State) (r : ReqId) (q : Request) (dir : Direction) : (s.enqueue r q dir).trace = s.trace := rfl
@[simp] theorem State.enqueue_coreClock (s : State) (r : ReqId) (q : Request) (dir : Direction) : (s.enqueue r q dir).coreClock = s.coreClock := rfl
@[simp] theorem State.enqueue_remWidth (s : State) (r : ReqId) (q : Request) (dir : Direction) : (s.enqueue r q dir).remWidth = s.remWidth := rfl
@[simp] theorem State.enqueue_initResult (s : State) (r : ReqId) (q : Request) (dir : Direction) : (s.enqueue r q dir).initResult = s.initResult := rfl
@[simp] theorem State.enqueue_inputs (s : State) (r : ReqId) (q : Request) (dir : Direction) : (s.enqueue r q dir).inputs = s.inputs := rfl
@[simp] theorem State.enqueue_draws (s : State) (r : ReqId) (q : Request) (dir : Direction) : (s.enqueue r q dir).draws = s.draws := rfl

/-! ### endRequest -/

@[simp] theorem State.endRequest_busState (s : State) (r : ReqId) (q : Request) (o : Tag) : (s.endRequest r q o).busState = s.busState := rfl
@[simp] theorem State.endRequest_current (s : State) (r : ReqId) (q : Request) (o : Tag) : (s.endRequest r q o).current = none := rfl
@[simp] theorem State.endRequest_queue (s : State) (r : ReqId) (q : Request) (o : Tag) : (s.endRequest r q o).queue = s.queue := rfl
@[simp] theorem State.endRequest_reqs (s : State) (r : ReqId) (q : Request) (o : Tag) : (s.endRequest r q o).reqs = Table.put s.reqs r { q with life := .released } := rfl
@[simp] theorem State.endRequest_devs (s : State) (r : ReqId) (q : Request) (o : Tag) : (s.endRequest r q o).devs = s.devs := rfl
@[simp] theorem State.endRequest_config (s : State) (r : ReqId) (q : Request) (o : Tag) : (s.endRequest r q o).config = s.config := rfl
@[simp] theorem State.endRequest_armed (s : State) (r : ReqId) (q : Request) (o : Tag) : (s.endRequest r q o).armed = s.armed := rfl
@[simp] theorem State.endRequest_fault (s : State) (r : ReqId) (q : Request) (o : Tag) : (s.endRequest r q o).fault = s.fault := rfl
@[simp] theorem State.endRequest_refused (s : State) (r : ReqId) (q : Request) (o : Tag) : (s.endRequest r q o).refused = s.refused := rfl
@[simp] theorem State.endRequest_controlReg (s : State) (r : ReqId) (q : Request) (o : Tag) : (s.endRequest r q o).controlReg = s.controlReg := rfl
@[simp] theorem State.endRequest_writeCollision (s : State) (r : ReqId) (q : Request) (o : Tag) : (s.endRequest r q o).writeCollision = s.writeCollision := rfl
@[simp] theorem State.endRequest_statusReg (s : State) (r : ReqId) (q : Request) (o : Tag) : (s.endRequest r q o).statusReg = s.statusReg := rfl
@[simp] theorem State.endRequest_dataReg (s : State) (r : ReqId) (q : Request) (o : Tag) : (s.endRequest r q o).dataReg = s.dataReg := rfl
@[simp] theorem State.endRequest_dividerReg (s : State) (r : ReqId) (q : Request) (o : Tag) : (s.endRequest r q o).dividerReg = s.dividerReg := rfl
@[simp] theorem State.endRequest_trace (s : State) (r : ReqId) (q : Request) (o : Tag) : (s.endRequest r q o).trace = s.trace ++ [.release r o] := rfl
@[simp] theorem State.endRequest_coreClock (s : State) (r : ReqId) (q : Request) (o : Tag) : (s.endRequest r q o).coreClock = s.coreClock := rfl
@[simp] theorem State.endRequest_remWidth (s : State) (r : ReqId) (q : Request) (o : Tag) : (s.endRequest r q o).remWidth = s.remWidth := rfl
@[simp] theorem State.endRequest_initResult (s : State) (r : ReqId) (q : Request) (o : Tag) : (s.endRequest r q o).initResult = s.initResult := rfl
@[simp] theorem State.endRequest_inputs (s : State) (r : ReqId) (q : Request) (o : Tag) : (s.endRequest r q o).inputs = s.inputs := rfl
@[simp] theorem State.endRequest_draws (s : State) (r : ReqId) (q : Request) (o : Tag) : (s.endRequest r q o).draws = s.draws := rfl

/-! ### rxStore -/

@[simp] theorem State.rxStore_busState (s : State) (r : ReqId) (q : Request) (v : Byte) : (s.rxStore r q v).busState = s.busState := rfl
@[simp] theorem State.rxStore_current (s : State) (r : ReqId) (q : Request) (v : Byte) : (s.rxStore r q v).current = s.current := rfl
@[simp] theorem State.rxStore_queue (s : State) (r : ReqId) (q : Request) (v : Byte) : (s.rxStore r q v).queue = s.queue := rfl
@[simp] theorem State.rxStore_reqs (s : State) (r : ReqId) (q : Request) (v : Byte) : (s.rxStore r q v).reqs = Table.put s.reqs r (q.rxStore s.draws v) := rfl
@[simp] theorem State.rxStore_devs (s : State) (r : ReqId) (q : Request) (v : Byte) : (s.rxStore r q v).devs = s.devs := rfl
@[simp] theorem State.rxStore_config (s : State) (r : ReqId) (q : Request) (v : Byte) : (s.rxStore r q v).config = s.config := rfl
@[simp] theorem State.rxStore_armed (s : State) (r : ReqId) (q : Request) (v : Byte) : (s.rxStore r q v).armed = s.armed := rfl
@[simp] theorem State.rxStore_fault (s : State) (r : ReqId) (q : Request) (v : Byte) : (s.rxStore r q v).fault = s.fault := rfl
@[simp] theorem State.rxStore_refused (s : State) (r : ReqId) (q : Request) (v : Byte) : (s.rxStore r q v).refused = s.refused := rfl
@[simp] theorem State.rxStore_controlReg (s : State) (r : ReqId) (q : Request) (v : Byte) : (s.rxStore r q v).controlReg = s.controlReg := rfl
@[simp] theorem State.rxStore_writeCollision (s : State) (r : ReqId) (q : Request) (v : Byte) : (s.rxStore r q v).writeCollision = s.writeCollision := rfl
@[simp] theorem State.rxStore_statusReg (s : State) (r : ReqId) (q : Request) (v : Byte) : (s.rxStore r q v).statusReg = s.statusReg := rfl
@[simp] theorem State.rxStore_dataReg (s : State) (r : ReqId) (q : Request) (v : Byte) : (s.rxStore r q v).dataReg = s.dataReg := rfl
@[simp] theorem State.rxStore_dividerReg (s : State) (r : ReqId) (q : Request) (v : Byte) : (s.rxStore r q v).dividerReg = s.dividerReg := rfl
@[simp] theorem State.rxStore_trace (s : State) (r : ReqId) (q : Request) (v : Byte) : (s.rxStore r q v).trace = s.trace := rfl
@[simp] theorem State.rxStore_coreClock (s : State) (r : ReqId) (q : Request) (v : Byte) : (s.rxStore r q v).coreClock = s.coreClock := rfl
@[simp] theorem State.rxStore_remWidth (s : State) (r : ReqId) (q : Request) (v : Byte) : (s.rxStore r q v).remWidth = s.remWidth := rfl
@[simp] theorem State.rxStore_initResult (s : State) (r : ReqId) (q : Request) (v : Byte) : (s.rxStore r q v).initResult = s.initResult := rfl
@[simp] theorem State.rxStore_inputs (s : State) (r : ReqId) (q : Request) (v : Byte) : (s.rxStore r q v).inputs = s.inputs := rfl
@[simp] theorem State.rxStore_draws (s : State) (r : ReqId) (q : Request) (v : Byte) : (s.rxStore r q v).draws = q.drawsAfter s.draws := rfl

/-! ### offer -/

@[simp] theorem State.offer_busState (s : State) (p : Packet) : (s.offer p).busState = s.busState := rfl
@[simp] theorem State.offer_current (s : State) (p : Packet) : (s.offer p).current = s.current := rfl
@[simp] theorem State.offer_queue (s : State) (p : Packet) : (s.offer p).queue = s.queue := rfl
@[simp] theorem State.offer_reqs (s : State) (p : Packet) : (s.offer p).reqs = s.reqs := rfl
@[simp] theorem State.offer_devs (s : State) (p : Packet) : (s.offer p).devs = s.devs := rfl
@[simp] theorem State.offer_config (s : State) (p : Packet) : (s.offer p).config = s.config := rfl
@[simp] theorem State.offer_armed (s : State) (p : Packet) : (s.offer p).armed = s.armed := rfl
@[simp] theorem State.offer_fault (s : State) (p : Packet) : (s.offer p).fault = s.fault := rfl
@[simp] theorem State.offer_refused (s : State) (p : Packet) : (s.offer p).refused = s.refused := rfl
@[simp] theorem State.offer_controlReg (s : State) (p : Packet) : (s.offer p).controlReg = s.controlReg := rfl
@[simp] theorem State.offer_writeCollision (s : State) (p : Packet) : (s.offer p).writeCollision = s.writeCollision := rfl
@[simp] theorem State.offer_statusReg (s : State) (p : Packet) : (s.offer p).statusReg = s.statusReg := rfl
@[simp] theorem State.offer_dataReg (s : State) (p : Packet) : (s.offer p).dataReg = s.dataReg := rfl
@[simp] theorem State.offer_dividerReg (s : State) (p : Packet) : (s.offer p).dividerReg = s.dividerReg := rfl
@[simp] theorem State.offer_trace (s : State) (p : Packet) : (s.offer p).trace = s.trace := rfl
@[simp] theorem State.offer_coreClock (s : State) (p : Packet) : (s.offer p).coreClock = s.coreClock := rfl
@[simp] theorem State.offer_remWidth (s : State) (p : Packet) : (s.offer p).remWidth = s.remWidth := rfl
@[simp] theorem State.offer_initResult (s : State) (p : Packet) : (s.offer p).initResult = s.initResult := rfl
@[simp] theorem State.offer_inputs (s : State) (p : Packet) : (s.offer p).inputs = .packet p :: s.inputs := rfl
@[simp] theorem State.offer_draws (s : State) (p : Packet) : (s.offer p).draws = s.draws := rfl

/-! ### setLife -/

@[simp] theorem State.setLife_busState (s : State) (r : ReqId) (l : Life) : (s.setLife r l).busState = s.busState := by
  unfold State.setLife; split <;> rfl
@[simp] theorem State.setLife_current (s : State) (r : ReqId) (l : Life) : (s.setLife r l).current = s.current := by
  unfold State.setLife; split <;> rfl
@[simp] theorem State.setLife_queue (s : State) (r : ReqId) (l : Life) : (s.setLife r l).queue = s.queue := by
  unfold State.setLife; split <;> rfl
@[simp] theorem State.setLife_devs (s : State) (r : ReqId) (l : Life) : (s.setLife r l).devs = s.devs := by
  unfold State.setLife; split <;> rfl
@[simp] theorem State.setLife_config (s : State) (r : ReqId) (l : Life) : (s.setLife r l).config = s.config := by
  unfold State.setLife; split <;> rfl
@[simp] theorem State.setLife_armed (s : State) (r : ReqId) (l : Life) : (s.setLife r l).armed = s.armed := by
  unfold State.setLife; split <;> rfl
@[simp] theorem State.setLife_fault (s : State) (r : ReqId) (l : Life) : (s.setLife r l).fault = s.fault := by
  unfold State.setLife; split <;> rfl
@[simp] theorem State.setLife_refused (s : State) (r : ReqId) (l : Life) : (s.setLife r l).refused = s.refused := by
  unfold State.setLife; split <;> rfl
@[simp] theorem State.setLife_controlReg (s : State) (r : ReqId) (l : Life) : (s.setLife r l).controlReg = s.controlReg := by
  unfold State.setLife; split <;> rfl
@[simp] theorem State.setLife_writeCollision (s : State) (r : ReqId) (l : Life) : (s.setLife r l).writeCollision = s.writeCollision := by
  unfold State.setLife; split <;> rfl
@[simp] theorem State.setLife_statusReg (s : State) (r : ReqId) (l : Life) : (s.setLife r l).statusReg = s.statusReg := by
  unfold State.setLife; split <;> rfl
@[simp] theorem State.setLife_dataReg (s : State) (r : ReqId) (l : Life) : (s.setLife r l).dataReg = s.dataReg := by
  unfold State.setLife; split <;> rfl
@[simp] theorem State.setLife_dividerReg (s : State) (r : ReqId) (l : Life) : (s.setLife r l).dividerReg = s.dividerReg := by
  unfold State.setLife; split <;> rfl
@[simp] theorem State.setLife_trace (s : State) (r : ReqId) (l : Life) : (s.setLife r l).trace = s.trace := by
  unfold State.setLife; split <;> rfl
@[simp] theorem State.setLife_coreClock (s : State) (r : ReqId) (l : Life) : (s.setLife r l).coreClock = s.coreClock := by
  unfold State.setLife; split <;> rfl
@[simp] theorem State.setLife_remWidth (s : State) (r : ReqId) (l : Life) : (s.setLife r l).remWidth = s.remWidth := by
  unfold State.setLife; split <;> rfl
@[simp] theorem State.setLife_initResult (s : State) (r : ReqId) (l : Life) : (s.setLife r l).initResult = s.initResult := by
  unfold State.setLife; split <;> rfl
@[simp] theorem State.setLife_inputs (s : State) (r : ReqId) (l : Life) : (s.setLife r l).inputs = s.inputs := by
  unfold State.setLife; split <;> rfl
@[simp] theorem State.setLife_draws (s : State) (r : ReqId) (l : Life) : (s.setLife r l).draws = s.draws := by
  unfold State.setLife; split <;> rfl

/-! ### rxCallback -/

@[simp] theorem State.rxCallback_busState (s : State) (r : ReqId) (q : Request) (v : Byte) : (s.rxCallback r q v).busState = s.busState := by
  unfold State.rxCallback; split <;> rfl
@[simp] theorem State.rxCallback_current (s : State) (r : ReqId) (q : Request) (v : Byte) : (s.rxCallback r q v).current = s.current := by
  unfold State.rxCallback; split <;> rfl
@[simp] theorem State.rxCallback_queue (s : State) (r : ReqId) (q : Request) (v : Byte) : (s.rxCallback r q v).queue = s.queue := by
  unfold State.rxCallback; split <;> rfl
@[simp] theorem State.rxCallback_reqs (s : State) (r : ReqId) (q : Request) (v : Byte) : (s.rxCallback r q v).reqs = s.reqs := by
  unfold State.rxCallback; split <;> rfl
@[simp] theorem State.rxCallback_devs (s : State) (r : ReqId) (q : Request) (v : Byte) : (s.rxCallback r q v).devs = s.devs := by
  unfold State.rxCallback; split <;> rfl
@[simp] theorem State.rxCallback_config (s : State) (r : ReqId) (q : Request) (v : Byte) : (s.rxCallback r q v).config = s.config := by
  unfold State.rxCallback; split <;> rfl
@[simp] theorem State.rxCallback_armed (s : State) (r : ReqId) (q : Request) (v : Byte) : (s.rxCallback r q v).armed = s.armed := by
  unfold State.rxCallback; split <;> rfl
@[simp] theorem State.rxCallback_fault (s : State) (r : ReqId) (q : Request) (v : Byte) : (s.rxCallback r q v).fault = s.fault := by
  unfold State.rxCallback; split <;> rfl
@[simp] theorem State.rxCallback_refused (s : State) (r : ReqId) (q : Request) (v : Byte) : (s.rxCallback r q v).refused = s.refused := by
  unfold State.rxCallback; split <;> rfl
@[simp] theorem State.rxCallback_controlReg (s : State) (r : ReqId) (q : Request) (v : Byte) : (s.rxCallback r q v).controlReg = s.controlReg := by
  unfold State.rxCallback; split <;> rfl
@[simp] theorem State.rxCallback_writeCollision (s : State) (r : ReqId) (q : Request) (v : Byte) : (s.rxCallback r q v).writeCollision = s.writeCollision := by
  unfold State.rxCallback; split <;> rfl
@[simp] theorem State.rxCallback_statusReg (s : State) (r : ReqId) (q : Request) (v : Byte) : (s.rxCallback r q v).statusReg = s.statusReg := by
  unfold State.rxCallback; split <;> rfl
@[simp] theorem State.rxCallback_dataReg (s : State) (r : ReqId) (q : Request) (v : Byte) : (s.rxCallback r q v).dataReg = s.dataReg := by
  unfold State.rxCallback; split <;> rfl
@[simp] theorem State.rxCallback_dividerReg (s : State) (r : ReqId) (q : Request) (v : Byte) : (s.rxCallback r q v).dividerReg = s.dividerReg := by
  unfold State.rxCallback; split <;> rfl
@[simp] theorem State.rxCallback_trace (s : State) (r : ReqId) (q : Request) (v : Byte) :
    (s.rxCallback r q v).trace = s.trace ++ callbackIf q r (some v) := by
  unfold State.rxCallback callbackIf; split <;> simp
@[simp] theorem State.rxCallback_coreClock (s : State) (r : ReqId) (q : Request) (v : Byte) : (s.rxCallback r q v).coreClock = s.coreClock := by
  unfold State.rxCallback; split <;> rfl
@[simp] theorem State.rxCallback_remWidth (s : State) (r : ReqId) (q : Request) (v : Byte) : (s.rxCallback r q v).remWidth = s.remWidth := by
  unfold State.rxCallback; split <;> rfl
@[simp] theorem State.rxCallback_initResult (s : State) (r : ReqId) (q : Request) (v : Byte) : (s.rxCallback r q v).initResult = s.initResult := by
  unfold State.rxCallback; split <;> rfl
@[simp] theorem State.rxCallback_inputs (s : State) (r : ReqId) (q : Request) (v : Byte) : (s.rxCallback r q v).inputs = s.inputs := by
  unfold State.rxCallback; split <;> rfl
@[simp] theorem State.rxCallback_draws (s : State) (r : ReqId) (q : Request) (v : Byte) : (s.rxCallback r q v).draws = s.draws := by
  unfold State.rxCallback; split <;> rfl

/-! ### startHead, drainOrIdle, dispatch: what none of them touches -/

@[simp] theorem State.startHead_devs (s : State) (c : Command) : (s.startHead c).devs = s.devs := by
  unfold State.startHead; split <;> simp
@[simp] theorem State.startHead_config (s : State) (c : Command) : (s.startHead c).config = s.config := by
  unfold State.startHead; split <;> simp
@[simp] theorem State.startHead_fault (s : State) (c : Command) : (s.startHead c).fault = s.fault := by
  unfold State.startHead; split <;> simp
@[simp] theorem State.startHead_refused (s : State) (c : Command) : (s.startHead c).refused = s.refused := by
  unfold State.startHead; split <;> simp
@[simp] theorem State.startHead_writeCollision (s : State) (c : Command) : (s.startHead c).writeCollision = s.writeCollision := by
  unfold State.startHead; split <;> simp
@[simp] theorem State.startHead_statusReg (s : State) (c : Command) : (s.startHead c).statusReg = s.statusReg := by
  unfold State.startHead; split <;> simp
@[simp] theorem State.startHead_dataReg (s : State) (c : Command) : (s.startHead c).dataReg = s.dataReg := by
  unfold State.startHead; split <;> simp
@[simp] theorem State.startHead_dividerReg (s : State) (c : Command) : (s.startHead c).dividerReg = s.dividerReg := by
  unfold State.startHead; split <;> simp
@[simp] theorem State.startHead_coreClock (s : State) (c : Command) : (s.startHead c).coreClock = s.coreClock := by
  unfold State.startHead; split <;> simp
@[simp] theorem State.startHead_remWidth (s : State) (c : Command) : (s.startHead c).remWidth = s.remWidth := by
  unfold State.startHead; split <;> simp
@[simp] theorem State.startHead_initResult (s : State) (c : Command) : (s.startHead c).initResult = s.initResult := by
  unfold State.startHead; split <;> simp
@[simp] theorem State.startHead_inputs (s : State) (c : Command) : (s.startHead c).inputs = s.inputs := by
  unfold State.startHead; split <;> simp
@[simp] theorem State.startHead_draws (s : State) (c : Command) : (s.startHead c).draws = s.draws := by
  unfold State.startHead; split <;> simp

@[simp] theorem State.drainOrIdle_devs (s : State) (m : StopMode) : (s.drainOrIdle m).devs = s.devs := by
  unfold State.drainOrIdle; split <;> simp
@[simp] theorem State.drainOrIdle_config (s : State) (m : StopMode) : (s.drainOrIdle m).config = s.config := by
  unfold State.drainOrIdle; split <;> simp
@[simp] theorem State.drainOrIdle_fault (s : State) (m : StopMode) : (s.drainOrIdle m).fault = s.fault := by
  unfold State.drainOrIdle; split <;> simp
@[simp] theorem State.drainOrIdle_refused (s : State) (m : StopMode) : (s.drainOrIdle m).refused = s.refused := by
  unfold State.drainOrIdle; split <;> simp
@[simp] theorem State.drainOrIdle_writeCollision (s : State) (m : StopMode) : (s.drainOrIdle m).writeCollision = s.writeCollision := by
  unfold State.drainOrIdle; split <;> simp
@[simp] theorem State.drainOrIdle_statusReg (s : State) (m : StopMode) : (s.drainOrIdle m).statusReg = s.statusReg := by
  unfold State.drainOrIdle; split <;> simp
@[simp] theorem State.drainOrIdle_dataReg (s : State) (m : StopMode) : (s.drainOrIdle m).dataReg = s.dataReg := by
  unfold State.drainOrIdle; split <;> simp
@[simp] theorem State.drainOrIdle_dividerReg (s : State) (m : StopMode) : (s.drainOrIdle m).dividerReg = s.dividerReg := by
  unfold State.drainOrIdle; split <;> simp
@[simp] theorem State.drainOrIdle_coreClock (s : State) (m : StopMode) : (s.drainOrIdle m).coreClock = s.coreClock := by
  unfold State.drainOrIdle; split <;> simp
@[simp] theorem State.drainOrIdle_remWidth (s : State) (m : StopMode) : (s.drainOrIdle m).remWidth = s.remWidth := by
  unfold State.drainOrIdle; split <;> simp
@[simp] theorem State.drainOrIdle_initResult (s : State) (m : StopMode) : (s.drainOrIdle m).initResult = s.initResult := by
  unfold State.drainOrIdle; split <;> simp
@[simp] theorem State.drainOrIdle_inputs (s : State) (m : StopMode) : (s.drainOrIdle m).inputs = s.inputs := by
  unfold State.drainOrIdle; split <;> simp
@[simp] theorem State.drainOrIdle_draws (s : State) (m : StopMode) : (s.drainOrIdle m).draws = s.draws := by
  unfold State.drainOrIdle; split <;> simp

@[simp] theorem State.dispatch_devs (s : State) : s.dispatch.devs = s.devs := by
  unfold State.dispatch; split <;> simp
@[simp] theorem State.dispatch_config (s : State) : s.dispatch.config = s.config := by
  unfold State.dispatch; split <;> simp
@[simp] theorem State.dispatch_fault (s : State) : s.dispatch.fault = s.fault := by
  unfold State.dispatch; split <;> simp
@[simp] theorem State.dispatch_refused (s : State) : s.dispatch.refused = s.refused := by
  unfold State.dispatch; split <;> simp
@[simp] theorem State.dispatch_writeCollision (s : State) : s.dispatch.writeCollision = s.writeCollision := by
  unfold State.dispatch; split <;> simp
@[simp] theorem State.dispatch_statusReg (s : State) : s.dispatch.statusReg = s.statusReg := by
  unfold State.dispatch; split <;> simp
@[simp] theorem State.dispatch_dataReg (s : State) : s.dispatch.dataReg = s.dataReg := by
  unfold State.dispatch; split <;> simp
@[simp] theorem State.dispatch_dividerReg (s : State) : s.dispatch.dividerReg = s.dividerReg := by
  unfold State.dispatch; split <;> simp
@[simp] theorem State.dispatch_coreClock (s : State) : s.dispatch.coreClock = s.coreClock := by
  unfold State.dispatch; split <;> simp
@[simp] theorem State.dispatch_remWidth (s : State) : s.dispatch.remWidth = s.remWidth := by
  unfold State.dispatch; split <;> simp
@[simp] theorem State.dispatch_initResult (s : State) : s.dispatch.initResult = s.initResult := by
  unfold State.dispatch; split <;> simp
@[simp] theorem State.dispatch_inputs (s : State) : s.dispatch.inputs = s.inputs := by
  unfold State.dispatch; split <;> simp
@[simp] theorem State.dispatch_draws (s : State) : s.dispatch.draws = s.draws := by
  unfold State.dispatch; split <;> simp

/-! ### finishInit: what INIT does not touch -/

@[simp] theorem State.finishInit_busState (s : State) (o : Option Nat) : (s.finishInit o).busState = s.busState := by
  cases o <;> rfl
@[simp] theorem State.finishInit_current (s : State) (o : Option Nat) : (s.finishInit o).current = s.current := by
  cases o <;> rfl
@[simp] theorem State.finishInit_queue (s : State) (o : Option Nat) : (s.finishInit o).queue = s.queue := by
  cases o <;> rfl
@[simp] theorem State.finishInit_reqs (s : State) (o : Option Nat) : (s.finishInit o).reqs = s.reqs := by
  cases o <;> rfl
@[simp] theorem State.finishInit_devs (s : State) (o : Option Nat) : (s.finishInit o).devs = s.devs := by
  cases o <;> rfl
@[simp] theorem State.finishInit_armed (s : State) (o : Option Nat) : (s.finishInit o).armed = s.armed := by
  cases o <;> rfl
@[simp] theorem State.finishInit_fault (s : State) (o : Option Nat) : (s.finishInit o).fault = s.fault := by
  cases o <;> rfl
@[simp] theorem State.finishInit_refused (s : State) (o : Option Nat) : (s.finishInit o).refused = s.refused := by
  cases o <;> rfl
@[simp] theorem State.finishInit_controlReg (s : State) (o : Option Nat) : (s.finishInit o).controlReg = s.controlReg := by
  cases o <;> rfl
@[simp] theorem State.finishInit_writeCollision (s : State) (o : Option Nat) : (s.finishInit o).writeCollision = s.writeCollision := by
  cases o <;> rfl
@[simp] theorem State.finishInit_dataReg (s : State) (o : Option Nat) : (s.finishInit o).dataReg = s.dataReg := by
  cases o <;> rfl
@[simp] theorem State.finishInit_coreClock (s : State) (o : Option Nat) : (s.finishInit o).coreClock = s.coreClock := by
  cases o <;> rfl
@[simp] theorem State.finishInit_remWidth (s : State) (o : Option Nat) : (s.finishInit o).remWidth = s.remWidth := by
  cases o <;> rfl
@[simp] theorem State.finishInit_inputs (s : State) (o : Option Nat) : (s.finishInit o).inputs = s.inputs := by
  cases o <;> rfl
@[simp] theorem State.finishInit_draws (s : State) (o : Option Nat) : (s.finishInit o).draws = s.draws := by
  cases o <;> rfl

end Sys2Proof.Machine
end

