-- ==== Sys2Proof/Laws/Table.lean ====
section
/-! SUPPORT. Tables: reading after writing, and the canonical form. -/

namespace Sys2Proof.Machine

variable {α : Type}

@[simp] theorem Table.get_nil (x : Nat) : Table.get ([] : List (Nat × α)) x = none := rfl

theorem Table.get_cons (k x : Nat) (v : α) (t : List (Nat × α)) :
    Table.get ((k, v) :: t) x = if k = x then some v else Table.get t x := rfl

@[simp] theorem Table.get_put_same (t : List (Nat × α)) (x : Nat) (v : α) : Table.get (Table.put t x v) x = some v := by
  induction t with
  | nil => simp [Table.put, Table.get]
  | cons p t ih =>
    obtain ⟨k, u⟩ := p
    unfold Table.put
    split
    · simp [Table.get]
    · split
      · simp [Table.get]
      · rw [Table.get_cons, if_neg (by omega), ih]

theorem Table.get_put_other (t : List (Nat × α)) {x y : Nat} (h : y ≠ x) (v : α) :
    Table.get (Table.put t x v) y = Table.get t y := by
  induction t with
  | nil => simp [Table.put, Table.get, Ne.symm h]
  | cons p t ih =>
    obtain ⟨k, u⟩ := p
    unfold Table.put
    split
    · rw [Table.get_cons, if_neg (Ne.symm h)]
    · split
      · rename_i hk
        subst hk
        rw [Table.get_cons, Table.get_cons, if_neg (Ne.symm h), if_neg (Ne.symm h)]
      · rw [Table.get_cons, Table.get_cons, ih]

theorem Table.get_put (t : List (Nat × α)) (x y : Nat) (v : α) :
    Table.get (Table.put t x v) y = if y = x then some v else Table.get t y := by
  split
  · rename_i h; subst h; exact Table.get_put_same t y v
  · exact Table.get_put_other t ‹_› v

@[simp] theorem Table.get_erase_same (t : List (Nat × α)) (x : Nat) : Table.get (Table.erase t x) x = none := by
  induction t with
  | nil => rfl
  | cons p t ih =>
    obtain ⟨k, u⟩ := p
    unfold Table.erase at ih ⊢
    by_cases h : k = x
    · simp [h, ih]
    · simp [h, Table.get_cons, ih]

theorem Table.get_erase_other (t : List (Nat × α)) {x y : Nat} (h : y ≠ x) :
    Table.get (Table.erase t x) y = Table.get t y := by
  induction t with
  | nil => rfl
  | cons p t ih =>
    obtain ⟨k, u⟩ := p
    unfold Table.erase at ih ⊢
    by_cases hk : k = x
    · have : k ≠ y := fun e => h (e.symm.trans hk)
      simp [hk, Table.get_cons, ih, Ne.symm h]
    · simp [hk, Table.get_cons, ih]

@[simp] theorem Table.put_put (t : List (Nat × α)) (x : Nat) (v w : α) : Table.put (Table.put t x v) x w = Table.put t x w := by
  induction t with
  | nil => simp [Table.put]
  | cons c t ih =>
    obtain ⟨k, u⟩ := c
    by_cases hlt : x < k
    · simp [Table.put, hlt]
    · by_cases heq : x = k
      · simp [Table.put, heq]
      · simp [Table.put, hlt, heq, ih]

theorem Table.mem_put {t : List (Nat × α)} {x : Nat} {v : α} {p : Nat × α} (h : p ∈ Table.put t x v) :
    p = (x, v) ∨ p ∈ t := by
  induction t with
  | nil => simpa [Table.put] using h
  | cons c t ih =>
    obtain ⟨k, u⟩ := c
    unfold Table.put at h
    split at h
    · simpa using h
    · split at h
      · rcases List.mem_cons.mp h with h | h
        · exact .inl h
        · exact .inr (List.mem_cons_of_mem _ h)
      · rcases List.mem_cons.mp h with h | h
        · exact .inr (h ▸ List.mem_cons_self)
        · exact (ih h).imp id (List.mem_cons_of_mem _)

theorem Table.put_canonical {t : List (Nat × α)} (h : Table.Canonical t) (x : Nat) (v : α) :
    Table.Canonical (Table.put t x v) := by
  induction t with
  | nil => simp [Table.put, Table.Canonical]
  | cons c t ih =>
    obtain ⟨k, u⟩ := c
    obtain ⟨hk, ht⟩ := List.pairwise_cons.mp h
    unfold Table.put
    split
    · rename_i hx
      refine List.pairwise_cons.mpr ⟨?_, h⟩
      intro p hp
      rcases List.mem_cons.mp hp with rfl | hp
      · exact hx
      · exact Nat.lt_trans hx (hk p hp)
    · split
      · rename_i hx
        subst hx
        exact List.pairwise_cons.mpr ⟨fun p hp => hk p hp, ht⟩
      · refine List.pairwise_cons.mpr ⟨?_, ih ht⟩
        intro p hp
        rcases Table.mem_put hp with rfl | hp
        · show k < x
          omega
        · exact hk p hp

theorem Table.erase_canonical {t : List (Nat × α)} (h : Table.Canonical t) (x : Nat) :
    Table.Canonical (Table.erase t x) := List.Pairwise.filter _ h

end Sys2Proof.Machine
end

