-- ==== Sys2Proof/Laws/Memory.lean ====
section
/-! SUPPORT. Caller buffers: reading after writing, and that every operation keeps the canonical form. -/

namespace Sys2Proof.Machine

@[simp] theorem Memory.write_len (m : Memory) (i : Nat) (v : Byte) : (m.write i v).len = m.len := rfl

@[simp] theorem Memory.ofBytes_len (bs : List Byte) : (Memory.ofBytes bs).len = bs.length := rfl

theorem Memory.read_isSome (m : Memory) (i : Nat) : (m.read i).isSome = true ↔ i < m.len := by
  unfold Memory.read; split <;> simp_all

theorem Memory.read_eq_none (m : Memory) (i : Nat) : m.read i = none ↔ m.len ≤ i := by
  unfold Memory.read; split <;> simp_all

theorem Memory.read_write_same (m : Memory) {i : Nat} (h : i < m.len) (v : Byte) : (m.write i v).read i = some v := by
  unfold Memory.read Memory.write
  rw [if_pos h]
  by_cases hv : v = Memory.unlisted
  · simp [hv]
  · simp [hv]

theorem Memory.read_write_other (m : Memory) {i j : Nat} (h : j ≠ i) (v : Byte) : (m.write i v).read j = m.read j := by
  unfold Memory.read Memory.write
  by_cases hv : v = Memory.unlisted
  · simp [hv, Table.get_erase_other _ h]
  · simp [hv, Table.get_put_other _ h]

theorem Memory.write_wf {m : Memory} (h : m.wf) {i : Nat} (hi : i < m.len) (v : Byte) : (m.write i v).wf := by
  obtain ⟨hc, hm⟩ := h
  unfold Memory.wf Memory.write
  by_cases hv : v = Memory.unlisted
  · rw [if_pos hv]
    exact ⟨Table.erase_canonical hc i, fun c hc' => hm c (List.mem_filter.mp hc').1⟩
  · rw [if_neg hv]
    refine ⟨Table.put_canonical hc i v, fun c hc' => ?_⟩
    rcases Table.mem_put hc' with rfl | hc'
    · exact ⟨hi, hv⟩
    · exact hm c hc'

theorem Memory.mem_cellsFrom {i : Nat} {bs : List Byte} {c : Host.Cell} (h : c ∈ Memory.cellsFrom i bs) :
    i ≤ c.1 ∧ c.1 < i + bs.length ∧ c.2 ≠ Memory.unlisted := by
  induction bs generalizing i with
  | nil => simp [Memory.cellsFrom] at h
  | cons b bs ih =>
    unfold Memory.cellsFrom at h
    simp only [List.length_cons]
    split at h
    · obtain ⟨h1, h2, h3⟩ := ih h
      exact ⟨by omega, by omega, h3⟩
    · rename_i hb
      rcases List.mem_cons.mp h with rfl | h
      · exact ⟨Nat.le_refl _, by show i < _; omega, hb⟩
      · obtain ⟨h1, h2, h3⟩ := ih h
        exact ⟨by omega, by omega, h3⟩

theorem Memory.cellsFrom_canonical (i : Nat) (bs : List Byte) : Table.Canonical (Memory.cellsFrom i bs) := by
  induction bs generalizing i with
  | nil => simp [Memory.cellsFrom, Table.Canonical]
  | cons b bs ih =>
    unfold Memory.cellsFrom
    split
    · exact ih _
    · exact List.pairwise_cons.mpr ⟨fun p hp => (Memory.mem_cellsFrom hp).1, ih _⟩

theorem Memory.ofBytes_wf (bs : List Byte) : (Memory.ofBytes bs).wf := by
  refine ⟨Memory.cellsFrom_canonical 0 bs, fun c hc => ?_⟩
  have := Memory.mem_cellsFrom hc
  exact ⟨by simpa using this.2.1, this.2.2⟩

theorem Memory.get_cellsFrom (i : Nat) (bs : List Byte) (j : Nat) :
    (Table.get (Memory.cellsFrom i bs) (i + j)).getD Memory.unlisted = bs[j]?.getD Memory.unlisted := by
  induction bs generalizing i j with
  | nil => simp [Memory.cellsFrom]
  | cons b bs ih =>
    have hnone : ∀ k, k ≤ i → Table.get (Memory.cellsFrom (i + 1) bs) k = none := by
      intro k hk
      have : ∀ t : List Host.Cell, (∀ c ∈ t, k < c.1) → Table.get t k = none := by
        intro t
        induction t with
        | nil => intro _; rfl
        | cons c t iht =>
          intro hall
          obtain ⟨x, v⟩ := c
          have hx : k < x := hall (x, v) List.mem_cons_self
          rw [Table.get_cons, if_neg (by omega)]
          exact iht fun c hc => hall c (List.mem_cons_of_mem _ hc)
      exact this _ fun c hc => Nat.lt_of_le_of_lt hk (Memory.mem_cellsFrom hc).1
    unfold Memory.cellsFrom
    cases j with
    | zero =>
      split
      · rename_i hb
        simp [hnone i (Nat.le_refl i), hb]
      · simp [Table.get_cons]
    | succ j =>
      have hij : i + (j + 1) = i + 1 + j := by omega
      split
      · rw [hij, ih]; simp
      · rw [Table.get_cons, if_neg (by omega), hij, ih]; simp

/-- The buffer made of the host's bytes reads as those bytes, and as nothing beyond them (R44). -/
theorem Memory.read_ofBytes (bs : List Byte) (i : Nat) : (Memory.ofBytes bs).read i = bs[i]? := by
  unfold Memory.read Memory.ofBytes
  have h := Memory.get_cellsFrom 0 bs i
  rw [Nat.zero_add] at h
  by_cases hi : i < bs.length
  · rw [if_pos hi, h]; simp [hi]
  · rw [if_neg hi]; simp [Nat.le_of_not_lt hi]

end Sys2Proof.Machine
end

