-- ==== Sys2Proof/Laws/Ops.lean ====
section
/-! SUPPORT. One lemma per shared operation: what it answers, and from which states. -/

namespace Sys2Proof.Machine

/-! ### Records -/

theorem State.request_setRequest (s : State) (r x : ReqId) (q : Request) :
    (s.setRequest r q).request x = if x = r then some q else s.request x := Table.get_put _ _ _ _

@[simp] theorem State.request_setRequest_same (s : State) (r : ReqId) (q : Request) :
    (s.setRequest r q).request r = some q := Table.get_put_same _ _ _

theorem State.setLife_of_some {s : State} {r : ReqId} {q : Request} (h : s.request r = some q) (l : Life) :
    s.setLife r l = s.setRequest r { q with life := l } := by
  unfold State.setLife; rw [h]

theorem State.setLife_of_none {s : State} {r : ReqId} (h : s.request r = none) (l : Life) : s.setLife r l = s := by
  unfold State.setLife; rw [h]

theorem State.request_setLife (s : State) (r x : ReqId) (l : Life) :
    (s.setLife r l).request x =
      if x = r then (s.request r).map fun q => { q with life := l } else s.request x := by
  cases h : s.request r with
  | none =>
    rw [State.setLife_of_none h]
    split
    · rename_i hx; subst hx; rw [h]; rfl
    · rfl
  | some q => rw [State.setLife_of_some h, State.request_setRequest]; rfl

theorem State.readByte_eq {s t : State} {r : ReqId} (h : t.request r = s.request r) (i : Nat) :
    t.readByte r i = s.readByte r i := by
  unfold State.readByte; rw [h]

/-! ### The sticky checks, raising, committing (R303, R305) -/

theorem guarded_running {s : State} (h : s.Running) (body : State → Host.Outcome State Fault Refusal) :
    guarded s body = body s := by
  unfold guarded; rw [h.1, h.2]

theorem guarded_next {s t : State} {body : State → Host.Outcome State Fault Refusal} (h : guarded s body = .next t) :
    s.Running ∧ body s = .next t := by
  unfold guarded at h
  split at h
  · simp at h
  · rename_i hf
    split at h
    · simp at h
    · rename_i hr
      exact ⟨⟨hf, hr⟩, h⟩

theorem guarded_fault {s : State} {f : Fault} (h : s.fault = some f) (body : State → Host.Outcome State Fault Refusal) :
    guarded s body = .fault f := by
  unfold guarded; rw [h]

theorem guarded_refused {s : State} {r : RefuseReason} (hf : s.fault = none) (h : s.refused = some r)
    (body : State → Host.Outcome State Fault Refusal) : guarded s body = .refused (.sticky r) := by
  unfold guarded; rw [hf, h]

theorem commit_next {s t : State} {result : Except Fault State} (h : commit s result = .next t) :
    result = .ok t ∨ ∃ f, result = .error f ∧ t = s.raise f := by
  unfold commit at h
  split at h
  · rename_i u
    simp only [Host.Outcome.next.injEq] at h
    exact .inl (by rw [h])
  · rename_i f
    simp only [Host.Outcome.next.injEq] at h
    exact .inr ⟨f, rfl, h.symm⟩

/-! ### Event entry (R170) -/

theorem event_serving {s : State} {r : ReqId} {q : Request} (h : s.Serving r q) (st d : Byte)
    (arm : State → ReqId → Request → Except Fault State) :
    event st d arm s = commit s (arm (s.latch st d) r q) := by
  unfold event
  rw [guarded_running h.1]
  simp only [h.2.1, h.2.2]

theorem event_idle {s : State} (h : s.Running) (hc : s.current = none) (st d : Byte)
    (arm : State → ReqId → Request → Except Fault State) : event st d arm s = .next (s.raise .spuriousEvent) := by
  unfold event
  rw [guarded_running h]
  simp only [hc]

/-- What an event can answer: the arm's result for the current request, or the state before the step with a mark. -/
theorem event_next {s t : State} {st d : Byte} {arm : State → ReqId → Request → Except Fault State}
    (h : event st d arm s = .next t) :
    s.Running ∧ ((∃ f, t = s.raise f ∧ (f = .spuriousEvent ↔ s.current = none) ∧ f ≠ .queueOverflow ∨
      ∃ r q, s.Serving r q ∧ arm (s.latch st d) r q = .error f ∧ t = s.raise f) ∨
      ∃ r q, s.Serving r q ∧ arm (s.latch st d) r q = .ok t) := by
  unfold event at h
  obtain ⟨hrun, h⟩ := guarded_next h
  refine ⟨hrun, ?_⟩
  split at h
  · rename_i hc
    simp only [Host.Outcome.next.injEq] at h
    exact .inl ⟨.spuriousEvent, .inl ⟨h.symm, by simp [hc], by simp⟩⟩
  · rename_i r hc
    split at h
    · simp only [Host.Outcome.next.injEq] at h
      exact .inl ⟨.danglingRecord, .inl ⟨h.symm, by simp [hc], by simp⟩⟩
    · rename_i q hq
      rcases commit_next h with h | ⟨f, h, ht⟩
      · exact .inr ⟨r, q, ⟨hrun, hc, hq⟩, h⟩
      · exact .inl ⟨f, .inr ⟨r, q, ⟨hrun, hc, hq⟩, h, ht⟩⟩

/-! ### Starting, draining, dispatching (R152, R153, R233) -/

theorem State.startHead_cons {s : State} {n : ReqId} {rest : List ReqId} (h : s.queue = n :: rest) (c : Command) :
    s.startHead c = ({ s with queue := rest, current := some n }.setLife n .current).command c := by
  unfold State.startHead; rw [h]

theorem State.drainOrIdle_cons {s : State} {n : ReqId} {rest : List ReqId} (h : s.queue = n :: rest) (m : StopMode) :
    s.drainOrIdle m = ({ s with queue := rest, current := some n }.setLife n .current).command m.chain := by
  unfold State.drainOrIdle; rw [h]; exact State.startHead_cons h _

theorem State.drainOrIdle_nil {s : State} (h : s.queue = []) (m : StopMode) :
    s.drainOrIdle m = { s with busState := .idle }.command m.stop := by
  unfold State.drainOrIdle; rw [h]

theorem State.dispatch_active {s : State} (h : s.busState = .active) : s.dispatch = s := by
  unfold State.dispatch; rw [h]

theorem State.dispatch_idle {s : State} (h : s.busState = .idle) :
    s.dispatch = { s with busState := .active }.startHead .start := by
  unfold State.dispatch; rw [h]

/-- Draining a non-empty queue: its head is current and started with the mode's STOP-then-START (R233). -/
theorem State.drainOrIdle_next {s : State} {n : ReqId} {rest : List ReqId} {qn : Request} (h : s.queue = n :: rest)
    (hq : s.request n = some qn) (m : StopMode) :
    s.drainOrIdle m = { s with
      queue := rest, current := some n, reqs := Table.put s.reqs n { qn with life := .current }
      armed := true, controlReg := 0xB5, trace := s.trace ++ [.cmd m.chain] } := by
  have hq' : ({ s with queue := rest, current := some n } : State).request n = some qn := hq
  rw [State.drainOrIdle_cons h, State.setLife_of_some hq']
  cases m <;> rfl

/-- Draining an empty queue: the bus idles with the mode's STOP (R233). -/
theorem State.drainOrIdle_idle {s : State} (h : s.queue = []) (m : StopMode) :
    s.drainOrIdle m = { s with
      busState := .idle, armed := false, controlReg := 0x95, trace := s.trace ++ [.cmd m.stop] } := by
  rw [State.drainOrIdle_nil h]
  cases m <;> rfl

/-- What draining does to each request's record: the head becomes Current. -/
theorem State.request_startHead (s : State) (c : Command) (x : ReqId) :
    (s.startHead c).request x =
      if s.queue.head? = some x then (s.request x).map fun q => { q with life := .current } else s.request x := by
  cases h : s.queue with
  | nil => unfold State.startHead; rw [h]; rfl
  | cons n rest =>
    rw [State.startHead_cons h]
    show (State.setLife _ n .current).request x = _
    rw [State.request_setLife]
    by_cases hx : x = n
    · subst hx; simp; rfl
    · simp [hx, Ne.symm hx]; rfl

theorem State.request_drainOrIdle (s : State) (m : StopMode) (x : ReqId) :
    (s.drainOrIdle m).request x =
      if s.queue.head? = some x then (s.request x).map fun q => { q with life := .current } else s.request x := by
  cases h : s.queue with
  | nil => rw [State.drainOrIdle_nil h]; rfl
  | cons n rest => rw [← h, ← State.request_startHead s m.chain]; unfold State.drainOrIdle; simp only [h]

/-- Where draining leaves the queue, the current request, the bus, the arming and the trace (R233). -/
theorem State.drainOrIdle_shape (s : State) (m : StopMode) (hc : s.current = none) :
    (s.drainOrIdle m).queue = s.queue.tail ∧ (s.drainOrIdle m).current = s.queue.head? ∧
    (s.drainOrIdle m).busState = (if s.queue = [] then .idle else s.busState) ∧
    ((s.drainOrIdle m).armed = true ↔ s.queue ≠ []) ∧
    (s.drainOrIdle m).trace = s.trace ++ [.cmd (if s.queue = [] then m.stop else m.chain)] := by
  cases h : s.queue with
  | nil => rw [State.drainOrIdle_nil h]; cases m <;> simp [h, hc, StopMode.stop, arms]
  | cons n rest => rw [State.drainOrIdle_cons h]; cases m <;> simp [StopMode.chain, arms]

theorem State.startHead_canonical {s : State} (h : Table.Canonical s.reqs) (c : Command) :
    Table.Canonical (s.startHead c).reqs := by
  unfold State.startHead
  split
  · show Table.Canonical (State.setLife _ _ .current).reqs
    unfold State.setLife
    split
    · exact Table.put_canonical h _ _
    · exact h
  · exact h

theorem State.drainOrIdle_canonical {s : State} (h : Table.Canonical s.reqs) (m : StopMode) :
    Table.Canonical (s.drainOrIdle m).reqs := by
  unfold State.drainOrIdle
  split
  · exact State.startHead_canonical h _
  · exact h

/-- What a SUBMIT does to the records: the request's direction and lifecycle, and on an Idle bus the head's lifecycle. -/
theorem State.request_submit (s : State) (r : ReqId) (q : Request) (dir : Direction) (x : ReqId) :
    (s.enqueue r q dir).dispatch.request x =
      if s.busState = .idle ∧ (s.queue ++ [r]).head? = some x then
        ((s.enqueue r q dir).request x).map fun q => { q with life := .current }
      else (s.enqueue r q dir).request x := by
  cases h : s.busState with
  | idle =>
    rw [State.dispatch_idle (s := s.enqueue r q dir) h, State.request_startHead]
    simp only [true_and]
    rfl
  | active =>
    rw [State.dispatch_active (s := s.enqueue r q dir) h]
    simp

theorem State.request_enqueue (s : State) (r : ReqId) (q : Request) (dir : Direction) (x : ReqId) :
    (s.enqueue r q dir).request x = if x = r then some { q with dir := dir, life := .queued } else s.request x :=
  Table.get_put _ _ _ _

/-- Where a SUBMIT leaves the queue, the current request, the bus, the arming and the trace (R151 to R153). -/
theorem State.submit_shape (s : State) (r : ReqId) (q : Request) (dir : Direction) :
    (s.busState = .active → (s.enqueue r q dir).dispatch = s.enqueue r q dir) ∧
    (s.busState = .idle → (s.enqueue r q dir).dispatch.queue = (s.queue ++ [r]).tail ∧
      (s.enqueue r q dir).dispatch.current = (s.queue ++ [r]).head? ∧
      (s.enqueue r q dir).dispatch.busState = .active ∧ (s.enqueue r q dir).dispatch.armed = true ∧
      (s.enqueue r q dir).dispatch.trace = s.trace ++ [.cmd .start]) := by
  refine ⟨fun h => State.dispatch_active (s := s.enqueue r q dir) h, fun h => ?_⟩
  rw [State.dispatch_idle (s := s.enqueue r q dir) h]
  cases hq : s.queue with
  | nil =>
    have : ({ s.enqueue r q dir with busState := .active } : State).queue = r :: [] := by
      simp [State.enqueue, hq]
    rw [State.startHead_cons this]; simp [arms, State.enqueue]
  | cons n rest =>
    have : ({ s.enqueue r q dir with busState := .active } : State).queue = n :: (rest ++ [r]) := by
      simp [State.enqueue, hq]
    rw [State.startHead_cons this]; simp [arms, State.enqueue]

theorem State.submit_canonical {s : State} (h : Table.Canonical s.reqs) (r : ReqId) (q : Request) (dir : Direction) :
    Table.Canonical (s.enqueue r q dir).dispatch.reqs := by
  have h' : Table.Canonical (s.enqueue r q dir).reqs := Table.put_canonical h _ _
  unfold State.dispatch
  split
  · exact State.startHead_canonical (s := { s.enqueue r q dir with busState := .active }) h' _
  · exact h'

/-- Completion, with its two callback branches read as one (R235, R236). -/
theorem State.completion_eq (s : State) (r : ReqId) (q : Request) :
    s.completion r q = ({ s with
      current := none, reqs := Table.put s.reqs r { q with hasCb := false, life := .released }
      trace := s.trace ++ callbackIf q r none ++ [.release r .ok] } : State).drainOrIdle .tx := by
  unfold State.completion callbackIf
  split
  · rfl
  · rename_i hcb
    have e : ({ q with hasCb := false, life := .released } : Request) = { q with life := .released } := by
      simp only [Bool.not_eq_true] at hcb
      rw [← hcb]
    rw [e]
    simp [State.endRequest, State.release, State.emit, State.setRequest]

/-! ### Receives (R214, R216, R217) -/

/-- A receive store leaves a byte under the cursor that R217 allows. -/
theorem Request.rxStore_eq (q : Request) (n : Nat) (d : Byte) :
    ∃ v, q.MayHold d v ∧ q.rxStore n d = { q with buf := q.bufWith v } := by
  unfold Request.rxStore Request.storeOffset Request.bufWith Request.MayHold
  by_cases h : q.cursor < q.buf.len
  · simp only [if_pos h]
    refine ⟨_, ?_, rfl⟩
    unfold storedByte
    split
    · exact .inl rfl
    · obtain ⟨w, hw⟩ := Option.isSome_iff_exists.mp ((Memory.read_isSome q.buf q.cursor).mpr h)
      rw [hw]
      exact .inr rfl
  · simp only [if_neg h]
    exact ⟨d, .inl rfl, trivial⟩

theorem State.rxCallback_eq (s : State) (r : ReqId) (q : Request) (v : Byte) :
    s.rxCallback r q v = { s with trace := s.trace ++ callbackIf q r (some v) } := by
  unfold State.rxCallback callbackIf
  split
  · rfl
  · simp

/-! ### Submit and INIT (R130, R150) -/

/-- What a SUBMIT can answer: the state before the step with a mark, or the queued and dispatched request. -/
theorem submit_next {cap : Option Nat} {r : ReqId} {dir : Direction} {s t : State} (h : submit cap r dir s = .next t) :
    s.Running ∧ ((∃ f, t = s.raise f ∧ f ≠ .spuriousEvent ∧ (f = .queueOverflow → queueFull cap s.queue = true)) ∨
      ∃ c q, s.config = some c ∧ s.request r = some q ∧ q.life = .fresh ∧ queueFull cap s.queue = false ∧
        t = (s.enqueue r q dir).dispatch) := by
  unfold submit at h
  obtain ⟨hrun, h⟩ := guarded_next h
  refine ⟨hrun, ?_⟩
  split at h
  · exact .inl ⟨_, (Host.Outcome.next.inj h).symm, by simp, by simp⟩
  · rename_i c hc
    split at h
    · exact .inl ⟨_, (Host.Outcome.next.inj h).symm, by simp, by simp⟩
    · rename_i q hq
      split at h
      · exact .inl ⟨_, (Host.Outcome.next.inj h).symm, by simp, by simp⟩
      · rename_i hl
        split at h
        · rename_i hfull
          exact .inl ⟨_, (Host.Outcome.next.inj h).symm, by simp, fun _ => hfull⟩
        · rename_i hfull
          refine .inr ⟨c, q, hc, hq, ?_, ?_, (Host.Outcome.next.inj h).symm⟩
          · simpa using hl
          · simpa using hfull

theorem submit_ready {cap : Option Nat} {r : ReqId} {dir : Direction} {s : State} {c : BusConfig} {q : Request}
    (hrun : s.Running) (hc : s.config = some c) (hq : s.request r = some q) (hl : q.life = .fresh)
    (hfull : queueFull cap s.queue = false) : submit cap r dir s = .next (s.enqueue r q dir).dispatch := by
  unfold submit
  rw [guarded_running hrun]
  simp [hc, hq, hl, hfull]

theorem initDivider_le {clock p dm target d : Nat} (h : initDivider clock p dm target = some d) :
    d ≤ dm ∧ d = dividerFor clock p target := by
  unfold initDivider at h
  split at h <;> try (simp at h; done)
  split at h <;> try (simp at h; done)
  split at h <;> try (simp at h; done)
  split at h <;> try (simp at h; done)
  split at h <;> try (simp at h; done)
  simp only [Option.some.injEq] at h
  subst h
  exact ⟨by omega, rfl⟩

theorem execInit_next {target : Nat} {s t : State} (h : execInit target s = .next t) :
    s.Running ∧ ((∃ c, s.config = some c ∧ t = s.raise .reinit) ∨
      (s.config = none ∧
        t = s.finishInit (initDivider s.coreClock Config.prescaler Config.divMax target))) := by
  unfold execInit at h
  obtain ⟨hrun, h⟩ := guarded_next h
  refine ⟨hrun, ?_⟩
  split at h
  · rename_i c hc
    exact .inl ⟨c, hc, (Host.Outcome.next.inj h).symm⟩
  · rename_i hc
    exact .inr ⟨hc, (Host.Outcome.next.inj h).symm⟩

/-! ### The step (R17) -/

/-- Every instruction makes the sticky checks before anything else (R305). -/
theorem exec_guarded (i : Instr) : ∃ body, ∀ s, exec i s = guarded s body := by
  cases i <;> exact ⟨_, fun _ => rfl⟩

theorem step_running {s : State} (h : s.Running) : step s = deliverNext s := guarded_running h _

/-- What a step can answer: an unchanged state with no input, or the response to the next input. -/
theorem step_next {s t : State} (h : step s = .next t) :
    s.Running ∧ ((s.inputs = [] ∧ t = s) ∨
      ∃ inp rest, s.inputs = inp :: rest ∧ respond inp { s with inputs := rest } = .next t) := by
  obtain ⟨hrun, h⟩ := guarded_next h
  refine ⟨hrun, ?_⟩
  unfold deliverNext at h
  split at h
  · rename_i hi
    exact .inl ⟨hi, (Host.Outcome.next.inj h).symm⟩
  · rename_i inp rest hi
    exact .inr ⟨inp, rest, hi, h⟩

/-- What the response to an input can answer. -/
theorem respond_next {inp : Input} {s t : State} (h : respond inp s = .next t) :
    (∃ d, inp = .directive d ∧ direct d s = .next t) ∨
    (∃ p i, inp = .packet p ∧ decodePacket p = .ok i ∧ exec i s = .next t) ∨
    (∃ p x, inp = .packet p ∧ t = s.refuse x) := by
  unfold respond at h
  split at h
  · exact .inl ⟨_, rfl, h⟩
  · rename_i p
    split at h
    · rename_i i hi
      exact .inr (.inl ⟨p, i, rfl, hi, h⟩)
    · rename_i e he
      refine .inr (.inr ⟨p, ?_⟩)
      cases e <;> simp only [rejectPacket, Host.Outcome.next.injEq, reduceCtorEq] at h
      · exact ⟨_, rfl, h.symm⟩
      · exact ⟨_, rfl, h.symm⟩

theorem direct_fits {d : Directive} {s : State} (h : d.fits s.remWidth = true) : direct d s = obey d s := if_pos h

theorem direct_wide {d : Directive} {s : State} (h : d.fits s.remWidth = false) : direct d s = .refused .countTooWide := by
  unfold direct; rw [h]; rfl

/-- What a directive can answer. -/
theorem direct_next {d : Directive} {s t : State} (h : direct d s = .next t) :
    (∃ x, t = s.refuse x) ∨
    (∃ dev addr, s.device dev = none ∧ t = { s with devs := Table.put s.devs dev { addr := addr } }) ∨
    (∃ r dev buf remaining cb, d = .newRequest r dev buf remaining cb ∧ s.request r = none ∧
      (s.device dev).isSome = true ∧ remaining < 2 ^ s.remWidth ∧
      t = s.setRequest r
        { dir := .write, device := dev, buf := Memory.ofBytes buf, cursor := 0, remaining := remaining, hasCb := cb,
          life := .fresh }) ∨
    (∃ r i v q, s.request r = some q ∧ i < q.buf.len ∧ t = s.setRequest r { q with buf := q.buf.write i v }) := by
  unfold direct at h
  split at h
  case isFalse => exact absurd h (by simp)
  rename_i hfit
  cases d with
  | newDevice dev addr =>
    simp only [obey, State.newDevice, Host.Outcome.next.injEq] at h
    split at h
    · exact .inl ⟨_, h.symm⟩
    · exact .inr (.inl ⟨dev, addr, ‹_›, h.symm⟩)
  | newRequest r dev buf remaining cb =>
    simp only [obey, State.newRequest, Host.Outcome.next.injEq] at h
    split at h
    · exact .inl ⟨_, h.symm⟩
    · rename_i hr
      split at h
      · exact .inl ⟨_, h.symm⟩
      · rename_i hd
        exact .inr (.inr (.inl ⟨r, dev, buf, remaining, cb, rfl, hr, by simp [hd], of_decide_eq_true hfit, h.symm⟩))
  | bufWrite r i v =>
    simp only [obey, State.hostWrite] at h
    split at h
    · rename_i u hu
      split at hu
      · rename_i q hq
        split at hu
        · simp only [Option.some.injEq] at hu
          simp only [Host.Outcome.next.injEq] at h
          exact .inr (.inr (.inr ⟨r, i, v, q, hq, ‹_›, by rw [← h, ← hu]⟩))
        · simp at hu
      · simp at hu
    · simp at h

end Sys2Proof.Machine
end

