-- ==== Sys2Proof/Laws/Effect.lean ====
section
/-! SUPPORT. Everything an instruction can do, said once: a next state of exec is one of the effects below, so that an invariant is
proved by one case each. -/

namespace Sys2Proof.Machine

/-- What an arm may have done to the current request's record before its last action. -/
structure SameRequest (q q' : Request) : Prop where
  dir : q'.dir = q.dir
  device : q'.device = q.device
  hasCb : q'.hasCb = q.hasCb
  life : q'.life = q.life
  len : q'.buf.len = q.buf.len
  counts : q'.cursor + q'.remaining = q.cursor + q.remaining
  cursor : q.cursor ≤ q'.cursor
  wf : q.buf.wf → q'.buf.wf

/-- The state of an arm before its last action: `u` differs from `s` in the record of the current request `r`, in the latch, the
draws and the data register, and in actions that are loads and callbacks of `r` with a byte. -/
structure Progress (s : State) (r : ReqId) (q : Request) (u : State) (q' : Request) : Prop where
  busState : u.busState = s.busState
  current : u.current = s.current
  queue : u.queue = s.queue
  request : ∀ x, u.request x = if x = r then some q' else s.request x
  canonical : Table.Canonical s.reqs → Table.Canonical u.reqs
  devs : u.devs = s.devs
  config : u.config = s.config
  fault : u.fault = s.fault
  refused : u.refused = s.refused
  controlReg : u.controlReg = s.controlReg
  dividerReg : u.dividerReg = s.dividerReg
  coreClock : u.coreClock = s.coreClock
  remWidth : u.remWidth = s.remWidth
  initResult : u.initResult = s.initResult
  inputs : u.inputs = s.inputs
  trace : ∃ acts, u.trace = s.trace ++ acts ∧ ∀ a ∈ acts, (∃ b, a = .load b) ∨ ∃ v, a = .callback r (some v)
  same : SameRequest q q'

/-- What an event may have done to the current request's buffer: nothing, or the receive store of a receive-data arm (R217). -/
def Stored (i : Instr) (q q' : Request) : Prop :=
  q'.buf = q.buf ∨ ∃ st d v, (i = .evDataAckR st d ∨ i = .evDataNackR st d) ∧ q.MayHold d v ∧ q'.buf = q.bufWith v

/-- The latch after the actions `acts` of an event: the status register holds S, the data register the last loaded byte or D, and
the write-collision flag is cleared by a load (R38, R170, R271). -/
def Latched (i : Instr) (s u : State) (acts : List Action) : Prop :=
  ∃ st d, eventBytes i = some (st, d) ∧ u.statusReg = st ∧ u.dataReg = lastLoaded acts d ∧
    u.writeCollision = collisionAfter acts s.writeCollision

/-- The effects of an instruction. -/
inductive Effect (i : Instr) (s : State) : State → Prop where
  /-- A fault is raised (R303). -/
  | raise (f : Fault) (hf : f = .spuriousEvent → s.current = none) (hq : f ≠ .queueOverflow) : Effect i s (s.raise f)
  /-- INIT ends (R130). -/
  | init {target : Nat} (hi : i = .init target) (o : Option Nat) (hc : s.config = none)
      (ho : ∀ d, o = some d → d ≤ Config.divMax) : Effect i s (s.finishInit o)
  /-- CFG (R134). -/
  | writeConfig (hi : i.isEvent = false ∧ i.isInput = false) (d p : Nat) : Effect i s (s.writeConfig d p)
  /-- A command as a step of its own (R263 to R270). -/
  | command (hi : i.isEvent = false ∧ i.isInput = false) (c : Command) : Effect i s (s.command c)
  /-- LOAD as a step of its own (R271). -/
  | load (b : Byte) (hi : i = .load b) : Effect i s (s.loadOutsideEvent b)
  /-- SUBMIT (R151 to R153). -/
  | submit {r : ReqId} {q : Request} {dir : Direction} {c : BusConfig} (hi : i = submitInstr r dir)
      (hc : s.config = some c) (hq : s.request r = some q) (hl : q.life = .fresh) : Effect i s (s.enqueue r q dir).dispatch
  /-- An event after which the current request goes on; its command is TRANSMIT exactly after a LOAD (R77, R268). -/
  | proceed {r : ReqId} {q q' : Request} {u : State} {c : Command} {acts : List Action} (hi : i.isEvent = true)
      (hserv : s.Serving r q) (hu : Progress s r q u q') (hb : Stored i q q') (hc : arms c = true)
      (ht : u.trace = s.trace ++ acts) (hl : Latched i s u acts) (htx : c = .transmit ↔ ∃ b, acts.getLast? = some (.load b)) : Effect i s (u.command c)
  /-- An event that ends the current request without a Write callback (R232, R235, R237). -/
  | finish {r : ReqId} {q q' : Request} {u : State} {o : Tag} {m : StopMode} (hi : i.isEvent = true)
      (hserv : s.Serving r q) (hu : Progress s r q u q') (hb : Stored i q q') (hl : Latched i s u []) :
      Effect i s ((u.endRequest r q' o).drainOrIdle m)
  /-- An event that ends the current request with its Write callback (R235, R236). -/
  | complete {r : ReqId} {q q' : Request} {u : State} (hi : i.isEvent = true) (hserv : s.Serving r q)
      (hu : Progress s r q u q') (hb : Stored i q q') (hl : Latched i s u []) (hcb : q'.hasCb = true) :
      Effect i s (((u.callback r none).endRequest r { q' with hasCb := false } .ok).drainOrIdle .tx)
  /-- The default arm (R240). -/
  | abandon {r : ReqId} {q q' : Request} {u : State} (hi : i.isEvent = true) (hserv : s.Serving r q)
      (hu : Progress s r q u q') (hb : Stored i q q') (hl : Latched i s u []) :
      Effect i s ({ u.endRequest r q' .unexpected with busState := .idle }.command .stop)

theorem SameRequest.refl (q : Request) : SameRequest q q :=
  ⟨rfl, rfl, rfl, rfl, rfl, rfl, Nat.le_refl _, id⟩

theorem SameRequest.advance {q : Request} (h : q.remaining ≠ 0) : SameRequest q q.advance where
  dir := rfl
  device := rfl
  hasCb := rfl
  life := rfl
  len := rfl
  counts := by show q.cursor + 1 + (q.remaining - 1) = _; omega
  cursor := Nat.le_succ _
  wf := id

theorem SameRequest.rxStore (q : Request) (n : Nat) (v : Byte) : SameRequest q (q.rxStore n v) := by
  unfold Request.rxStore Request.storeOffset
  by_cases h : q.cursor < q.buf.len
  · rw [if_pos h]
    exact ⟨rfl, rfl, rfl, rfl, rfl, rfl, Nat.le_refl _, fun hw => Memory.write_wf hw h _⟩
  · rw [if_neg h]
    exact SameRequest.refl q

theorem SameRequest.trans {q q' q'' : Request} (h : SameRequest q q') (h' : SameRequest q' q'') : SameRequest q q'' where
  dir := h'.dir.trans h.dir
  device := h'.device.trans h.device
  hasCb := h'.hasCb.trans h.hasCb
  life := h'.life.trans h.life
  len := h'.len.trans h.len
  counts := h'.counts.trans h.counts
  cursor := Nat.le_trans h.cursor h'.cursor
  wf := h'.wf ∘ h.wf

theorem Progress.latch {s : State} {r : ReqId} {q : Request} (hq : s.request r = some q) (st d : Byte) :
    Progress s r q (s.latch st d) q where
  busState := rfl
  current := rfl
  queue := rfl
  request x := by
    show s.request x = _
    split
    · rename_i hx; rw [hx]; exact hq
    · rfl
  canonical := id
  devs := rfl
  config := rfl
  fault := rfl
  refused := rfl
  controlReg := rfl
  dividerReg := rfl
  coreClock := rfl
  remWidth := rfl
  initResult := rfl
  inputs := rfl
  trace := ⟨[], by simp, by simp⟩
  same := SameRequest.refl q

theorem Progress.setRequest {s u : State} {r : ReqId} {q q' q'' : Request} (h : Progress s r q u q')
    (hs : SameRequest q q'') : Progress s r q (u.setRequest r q'') q'' where
  busState := h.busState
  current := h.current
  queue := h.queue
  request x := by
    rw [State.request_setRequest, h.request]
    split <;> rfl
  canonical hc := Table.put_canonical (h.canonical hc) _ _
  devs := h.devs
  config := h.config
  fault := h.fault
  refused := h.refused
  controlReg := h.controlReg
  dividerReg := h.dividerReg
  coreClock := h.coreClock
  remWidth := h.remWidth
  initResult := h.initResult
  inputs := h.inputs
  trace := h.trace
  same := hs

theorem Progress.load {s u : State} {r : ReqId} {q q' : Request} (h : Progress s r q u q') (b : Byte) :
    Progress s r q (u.load b) q' where
  busState := h.busState
  current := h.current
  queue := h.queue
  request := h.request
  canonical := h.canonical
  devs := h.devs
  config := h.config
  fault := h.fault
  refused := h.refused
  controlReg := h.controlReg
  dividerReg := h.dividerReg
  coreClock := h.coreClock
  remWidth := h.remWidth
  initResult := h.initResult
  inputs := h.inputs
  trace := by
    obtain ⟨acts, ht, ha⟩ := h.trace
    refine ⟨acts ++ [.load b], by simp [ht], fun a hm => ?_⟩
    rcases List.mem_append.mp hm with hm | hm
    · exact ha a hm
    · exact .inl ⟨b, by simpa using hm⟩
  same := h.same

theorem Progress.rxCallback {s u : State} {r : ReqId} {q q' : Request} (h : Progress s r q u q') (p : Request) (v : Byte) :
    Progress s r q (u.rxCallback r p v) q' where
  busState := by simp [h.busState]
  current := by simp [h.current]
  queue := by simp [h.queue]
  request x := by
    show Table.get (u.rxCallback r p v).reqs x = _
    rw [State.rxCallback_reqs]; exact h.request x
  canonical hc := by rw [State.rxCallback_reqs]; exact h.canonical hc
  devs := by simp [h.devs]
  config := by simp [h.config]
  fault := by simp [h.fault]
  refused := by simp [h.refused]
  controlReg := by simp [h.controlReg]
  dividerReg := by simp [h.dividerReg]
  coreClock := by simp [h.coreClock]
  remWidth := by simp [h.remWidth]
  initResult := by simp [h.initResult]
  inputs := by simp [h.inputs]
  trace := by
    obtain ⟨acts, ht, ha⟩ := h.trace
    refine ⟨acts ++ callbackIf p r (some v), by simp [ht], fun a hm => ?_⟩
    rcases List.mem_append.mp hm with hm | hm
    · exact ha a hm
    · unfold callbackIf at hm
      split at hm
      · exact .inr ⟨v, by simpa using hm⟩
      · simp at hm
  same := h.same

theorem Progress.rxStore {s u : State} {r : ReqId} {q q' : Request} (h : Progress s r q u q') (v : Byte) :
    Progress s r q (u.rxStore r q' v) (q'.rxStore u.draws v) where
  busState := h.busState
  current := h.current
  queue := h.queue
  request x := by
    show ((u.setRequest r (q'.rxStore u.draws v)).request x) = _
    rw [State.request_setRequest, h.request]
    split <;> rfl
  canonical hc := Table.put_canonical (h.canonical hc) _ _
  devs := h.devs
  config := h.config
  fault := h.fault
  refused := h.refused
  controlReg := h.controlReg
  dividerReg := h.dividerReg
  coreClock := h.coreClock
  remWidth := h.remWidth
  initResult := h.initResult
  inputs := h.inputs
  trace := h.trace
  same := h.same.trans (SameRequest.rxStore _ _ _)

/-! ### Each family's effect -/

/-- An event whose arm only makes effects, and raises no SPURIOUS_EVENT and no QUEUE_OVERFLOW, makes an effect. -/
theorem event_effect {i : Instr} {s t : State} {st d : Byte} {arm : State → ReqId → Request → Except Fault State}
    (harm : ∀ r q, s.Serving r q → (∀ u, arm (s.latch st d) r q = .ok u → Effect i s u) ∧
      ∀ f, arm (s.latch st d) r q = .error f → f ≠ .spuriousEvent ∧ f ≠ .queueOverflow)
    (h : event st d arm s = .next t) : s.Running ∧ Effect i s t := by
  obtain ⟨hrun, ⟨f, h⟩ | ⟨r, q, hserv, h⟩⟩ := event_next h
  · rcases h with ⟨rfl, hf, hq⟩ | ⟨r, q, hserv, herr, rfl⟩
    · exact ⟨hrun, .raise f hf.mp hq⟩
    · have hne := (harm r q hserv).2 f herr
      exact ⟨hrun, .raise f (fun hf => absurd hf hne.1) hne.2⟩
  · exact ⟨hrun, (harm r q hserv).1 t h⟩

/-- An event whose arm always ends well. -/
theorem event_effect_ok {i : Instr} {s t : State} {st d : Byte} {arm : State → ReqId → Request → Except Fault State}
    (harm : ∀ r q, s.Serving r q → ∃ u, arm (s.latch st d) r q = .ok u ∧ Effect i s u)
    (h : event st d arm s = .next t) : s.Running ∧ Effect i s t := by
  refine event_effect (fun r q hs => ?_) h
  obtain ⟨u, hu, he⟩ := harm r q hs
  rw [hu]
  exact ⟨fun v hv => Except.ok.inj hv ▸ he, fun f hf => by simp at hf⟩

theorem completion_effect {i : Instr} {s u : State} {r : ReqId} {q q' : Request} (hi : i.isEvent = true)
    (h : s.Serving r q) (hu : Progress s r q u q') (hb : Stored i q q') (hl : Latched i s u []) : Effect i s (u.completion r q') := by
  unfold State.completion
  split
  · exact .complete hi h hu hb hl ‹_›
  · exact .finish hi h hu hb hl

theorem sendByte_effect {i : Instr} {s u : State} {r : ReqId} {q q' : Request} (hi : i.isEvent = true)
    (h : s.Serving r q) (hu : Progress s r q u q') (hb : Stored i q q') (hl : Latched i s u []) :
    (∀ v, sendByteAtCursor u q' = .ok v → Effect i s v) ∧
    ∀ f, sendByteAtCursor u q' = .error f → f ≠ .spuriousEvent ∧ f ≠ .queueOverflow := by
  unfold sendByteAtCursor
  split
  · rename_i b hb'
    obtain ⟨acts, ht, -⟩ := hu.trace
    refine ⟨fun v hv => Except.ok.inj hv ▸ ?_, fun f hf => by simp at hf⟩
    obtain ⟨st, d, hev, hst, -⟩ := hl
    exact .proceed (acts := acts ++ [.load b]) hi h (hu.load b) hb rfl (by simp [ht])
      ⟨st, d, hev, hst, by simp [lastLoaded], by simp [collisionAfter]⟩ (by simp)
  · exact ⟨fun v hv => by simp at hv, fun f hf => by cases hf; decide⟩

theorem addressPhase_effect {i : Instr} {s : State} {r : ReqId} {q : Request} {st d : Byte} (hi : i.isEvent = true)
    (h : s.Serving r q) (hev : eventBytes i = some (st, d)) :
    (∀ v, addressPhase (s.latch st d) r q = .ok v → Effect i s v) ∧
    ∀ f, addressPhase (s.latch st d) r q = .error f → f ≠ .spuriousEvent ∧ f ≠ .queueOverflow := by
  unfold addressPhase
  split
  · rename_i dev _
    refine ⟨fun v hv => Except.ok.inj hv ▸ ?_, fun f hf => by simp at hf⟩
    exact .proceed (acts := [.load (addrByte dev.addr q.dir)]) hi h ((Progress.latch h.2.2 st d).load _) (.inl rfl) rfl
      (by simp) ⟨st, d, hev, rfl, rfl, rfl⟩ (by simp)
  · exact ⟨fun v hv => by simp at hv, fun f hf => by cases hf; decide⟩

theorem ackOrNack_arms (q : Request) : arms (ackOrNack q) = true ∧ ackOrNack q ≠ .transmit := by
  unfold ackOrNack; split <;> exact ⟨rfl, by decide⟩

theorem lastLoaded_callbackIf (q : Request) (r : ReqId) (p : Option Byte) (d : Byte) :
    lastLoaded (callbackIf q r p) d = d := by
  unfold lastLoaded callbackIf
  by_cases h : q.hasCb = true <;> simp [h]

theorem collisionAfter_callbackIf (q : Request) (r : ReqId) (p : Option Byte) (c : Bool) :
    collisionAfter (callbackIf q r p) c = c := by
  unfold collisionAfter callbackIf
  by_cases h : q.hasCb = true <;> simp [h]

theorem Stored.rxStore {i : Instr} {st d : Byte} (hi : i = .evDataAckR st d ∨ i = .evDataNackR st d) (q : Request) (n : Nat) :
    Stored i q (q.rxStore n d) := by
  obtain ⟨v, hv, he⟩ := q.rxStore_eq n d
  exact .inr ⟨st, d, v, hi, hv, by rw [he]⟩

/-- Everything an instruction can do. -/
theorem exec_effect {i : Instr} {s t : State} (h : exec i s = .next t) : s.Running ∧ Effect i s t := by
  cases i with
  | init target =>
    obtain ⟨hrun, ⟨c, -, rfl⟩ | ⟨hc, rfl⟩⟩ := execInit_next h
    · exact ⟨hrun, .raise _ (by simp) (by simp)⟩
    · exact ⟨hrun, .init rfl _ hc fun d hd => (initDivider_le hd).1⟩
  | submitW r =>
    obtain ⟨hrun, ⟨f, rfl, hf⟩ | ⟨c, q, hc, hq, hl, -, rfl⟩⟩ := submit_next h
    · exact ⟨hrun, .raise _ (fun e => absurd e hf.1) fun e => by simpa [Config.queueCap, queueFull] using hf.2 e⟩
    · exact ⟨hrun, .submit rfl hc hq hl⟩
  | submitR r =>
    obtain ⟨hrun, ⟨f, rfl, hf⟩ | ⟨c, q, hc, hq, hl, -, rfl⟩⟩ := submit_next h
    · exact ⟨hrun, .raise _ (fun e => absurd e hf.1) fun e => by simpa [Config.queueCap, queueFull] using hf.2 e⟩
    · exact ⟨hrun, .submit rfl hc hq hl⟩
  | evStart st d => exact event_effect (fun r q hs => addressPhase_effect rfl hs rfl) h
  | evRepeatStart st d => exact event_effect (fun r q hs => addressPhase_effect rfl hs rfl) h
  | evAddrAckW st d =>
    dsimp only [exec, execEvAddrAckW] at h
    refine event_effect (fun r q hs => ?_) h
    split
    · exact ⟨fun v hv => Except.ok.inj hv ▸ completion_effect rfl hs (.latch hs.2.2 st d) (.inl rfl) ⟨st, d, rfl, rfl, rfl, rfl⟩, fun f hf => by simp at hf⟩
    · exact sendByte_effect rfl hs (.latch hs.2.2 st d) (.inl rfl) ⟨st, d, rfl, rfl, rfl, rfl⟩
  | evAddrNackW st d =>
    dsimp only [exec, execEvAddrNackW] at h
    exact event_effect_ok (fun r q hs => ⟨_, rfl, .finish rfl hs (.latch hs.2.2 st d) (.inl rfl) ⟨st, d, rfl, rfl, rfl, rfl⟩⟩) h
  | evDataAckW st d =>
    dsimp only [exec, execEvDataAckW] at h
    refine event_effect (fun r q hs => ?_) h
    split
    · exact ⟨fun v hv => by simp at hv, fun f hf => by cases hf; decide⟩
    · rename_i hr
      have hp := (Progress.latch hs.2.2 st d).setRequest (SameRequest.advance hr)
      split
      · exact sendByte_effect rfl hs hp (.inl rfl) ⟨st, d, rfl, rfl, rfl, rfl⟩
      · exact ⟨fun v hv => Except.ok.inj hv ▸ completion_effect rfl hs hp (.inl rfl) ⟨st, d, rfl, rfl, rfl, rfl⟩, fun f hf => by simp at hf⟩
  | evDataNackW st d =>
    dsimp only [exec, execEvDataNackW] at h
    exact event_effect_ok (fun r q hs => ⟨_, rfl, .finish rfl hs (.latch hs.2.2 st d) (.inl rfl) ⟨st, d, rfl, rfl, rfl, rfl⟩⟩) h
  | evAddrAckR st d =>
    dsimp only [exec, execEvAddrAckR] at h
    refine event_effect_ok (fun r q hs => ?_) h
    split
    · exact ⟨_, rfl, .finish rfl hs (.latch hs.2.2 st d) (.inl rfl) ⟨st, d, rfl, rfl, rfl, rfl⟩⟩
    · exact ⟨_, rfl, .proceed (acts := []) rfl hs (.latch hs.2.2 st d) (.inl rfl) rfl (by simp) ⟨st, d, rfl, rfl, rfl, rfl⟩ (by simp)⟩
  | evAddrNackR st d =>
    dsimp only [exec, execEvAddrNackR] at h
    exact event_effect_ok (fun r q hs => ⟨_, rfl, .finish rfl hs (.latch hs.2.2 st d) (.inl rfl) ⟨st, d, rfl, rfl, rfl, rfl⟩⟩) h
  | evDataAckR st d =>
    dsimp only [exec, execEvDataAckR] at h
    refine event_effect (fun r q hs => ?_) h
    split
    · exact ⟨fun v hv => by simp at hv, fun f hf => by cases hf; decide⟩
    · rename_i hr
      refine ⟨fun v hv => Except.ok.inj hv ▸ ?_, fun f hf => by simp at hf⟩
      have hc : (q.rxStore s.draws d).remaining = q.remaining := by
        unfold Request.rxStore; split <;> rfl
      have hsame : SameRequest q (q.rxStore s.draws d).advance :=
        (SameRequest.rxStore q s.draws d).trans (SameRequest.advance (by rw [hc]; exact hr))
      refine .proceed (acts := callbackIf (q.rxStore s.draws d).advance r (some d)) rfl hs
        ((((Progress.latch hs.2.2 st d).rxStore d).setRequest hsame).rxCallback _ _) (Stored.rxStore (.inl rfl) q _)
        (ackOrNack_arms _).1 (by simp)
        ⟨st, d, rfl, by simp [State.rxStore], by
          rw [lastLoaded_callbackIf, State.rxCallback_dataReg]; rfl, by
          rw [collisionAfter_callbackIf, State.rxCallback_writeCollision]; rfl⟩ ⟨fun e => absurd e (ackOrNack_arms _).2, fun ⟨b, hb⟩ => ?_⟩
      unfold callbackIf at hb
      split at hb <;> simp at hb
  | evDataNackR st d =>
    dsimp only [exec, execEvDataNackR] at h
    exact event_effect_ok (fun r q hs => ⟨_, rfl, .finish rfl hs (((Progress.latch hs.2.2 st d).rxStore d).rxCallback q d)
      (Stored.rxStore (.inr rfl) q _) ⟨st, d, rfl, by simp [State.rxStore], by simp [State.rxStore, lastLoaded],
      by simp [State.rxStore, collisionAfter]⟩⟩) h
  | evOther st d =>
    dsimp only [exec, execEvOther] at h
    exact event_effect_ok (fun r q hs => ⟨_, rfl, .abandon rfl hs (.latch hs.2.2 st d) (.inl rfl) ⟨st, d, rfl, rfl, rfl, rfl⟩⟩) h
  | start =>
    dsimp only [exec, execStart, primitive] at h
    obtain ⟨hrun, h⟩ := guarded_next h
    exact ⟨hrun, Host.Outcome.next.inj h ▸ .command ⟨rfl, rfl⟩ _⟩
  | stop =>
    dsimp only [exec, execStop, primitive] at h
    obtain ⟨hrun, h⟩ := guarded_next h
    exact ⟨hrun, Host.Outcome.next.inj h ▸ .command ⟨rfl, rfl⟩ _⟩
  | stopStart =>
    dsimp only [exec, execStopStart, primitive] at h
    obtain ⟨hrun, h⟩ := guarded_next h
    exact ⟨hrun, Host.Outcome.next.inj h ▸ .command ⟨rfl, rfl⟩ _⟩
  | ack =>
    dsimp only [exec, execAck, primitive] at h
    obtain ⟨hrun, h⟩ := guarded_next h
    exact ⟨hrun, Host.Outcome.next.inj h ▸ .command ⟨rfl, rfl⟩ _⟩
  | nack =>
    dsimp only [exec, execNack, primitive] at h
    obtain ⟨hrun, h⟩ := guarded_next h
    exact ⟨hrun, Host.Outcome.next.inj h ▸ .command ⟨rfl, rfl⟩ _⟩
  | transmit =>
    dsimp only [exec, execTransmit, primitive] at h
    obtain ⟨hrun, h⟩ := guarded_next h
    exact ⟨hrun, Host.Outcome.next.inj h ▸ .command ⟨rfl, rfl⟩ _⟩
  | stopRx =>
    dsimp only [exec, execStopRx, primitive] at h
    obtain ⟨hrun, h⟩ := guarded_next h
    exact ⟨hrun, Host.Outcome.next.inj h ▸ .command ⟨rfl, rfl⟩ _⟩
  | stopStartRx =>
    dsimp only [exec, execStopStartRx, primitive] at h
    obtain ⟨hrun, h⟩ := guarded_next h
    exact ⟨hrun, Host.Outcome.next.inj h ▸ .command ⟨rfl, rfl⟩ _⟩
  | load b =>
    dsimp only [exec, execLoad] at h
    obtain ⟨hrun, h⟩ := guarded_next h
    exact ⟨hrun, Host.Outcome.next.inj h ▸ .load b rfl⟩
  | cfg d p =>
    dsimp only [exec, execCfg] at h
    obtain ⟨hrun, h⟩ := guarded_next h
    exact ⟨hrun, Host.Outcome.next.inj h ▸ .writeConfig ⟨rfl, rfl⟩ _ _⟩

/-- What no instruction touches: the refusal mark, the two OPEN parameters, and the inputs still to come. -/
theorem Effect.keeps {i : Instr} {s t : State} (h : Effect i s t) :
    t.refused = s.refused ∧ t.coreClock = s.coreClock ∧ t.remWidth = s.remWidth ∧ t.inputs = s.inputs := by
  cases h with
  | proceed _ _ hu | finish _ _ hu | complete _ _ hu | abandon _ _ hu =>
    simp [hu.refused, hu.coreClock, hu.remWidth, hu.inputs]
  | _ => simp

end Sys2Proof.Machine
end

