-- ==== Sys2Proof/Laws/Encoding.lean ====
section
/-! SUPPORT. The fields of records as numbers, and the records of instructions as numbers: field arithmetic is then omega's. -/

namespace Sys2Proof

theorem extract_toNat {n : Nat} (w : BitVec n) (lo len : Nat) :
    (w.extractLsb' lo len).toNat = w.toNat / 2 ^ lo % 2 ^ len := by
  rw [BitVec.extractLsb'_toNat, Nat.shiftRight_eq_div_pow]

theorem append_toNat {m n : Nat} (a : BitVec m) (b : BitVec n) : (a ++ b).toNat = a.toNat * 2 ^ n + b.toNat := by
  rw [BitVec.toNat_append, Nat.shiftLeft_eq, Nat.mul_comm, ← Nat.two_pow_add_eq_or_of_lt b.isLt, Nat.mul_comm]

theorem eventRecord_toNat (st d : Byte) : (eventRecord st d).toNat = d.toNat * 256 + st.toNat := by
  show (0#16 ++ d ++ st).toNat = _
  rw [append_toNat, append_toNat]
  simp

theorem submitRecord_toNat (b : BitVec 1) (r : ReqId) :
    (submitRecord b r).toNat = 2 ^ 30 + b.toNat * 2 ^ 29 + r % 2 ^ 24 := by
  show (0b01#2 ++ b ++ 0#5 ++ BitVec.ofNat 24 r).toNat = _
  rw [append_toNat, append_toNat, append_toNat, BitVec.toNat_ofNat]
  simp
  omega

theorem initRecord_toNat (target : Nat) : (initRecord target).toNat = 2 ^ 31 + target % 2 ^ 30 := by
  show (0b10#2 ++ BitVec.ofNat 30 target).toNat = _
  rw [append_toNat, BitVec.toNat_ofNat]
  simp

theorem cfgWord_toNat (prescaler : Nat) (divider : Byte) :
    @BitVec.toNat 16 (BitVec.ofNat 8 prescaler ++ divider) = prescaler % 256 * 256 + divider.toNat := by
  show (BitVec.ofNat 8 prescaler ++ divider).toNat = _
  rw [append_toNat, BitVec.toNat_ofNat]
  rfl

/-- A status byte's name under the machine's binding decides its instruction (R96, R101). -/
theorem decodeEvent_of_name {st : Byte} {n : Option StatusName} (h : decodeStatus st = n) (d : Byte) :
    decodeEvent st d = eventInstr n st d := by
  unfold decodeEvent; rw [h]

/-- Every event the decoder makes is well formed and an event. -/
theorem eventInstr_wf : ∀ st d : Byte, (decodeEvent st d).wf = true ∧ (decodeEvent st d).isEvent = true := by
  intro st d
  have key : ∀ st : Byte, (decodeEvent st 0).wf = true ∧ (decodeEvent st 0).isEvent = true := by decide
  have hk := key st
  unfold decodeEvent at hk ⊢
  revert hk
  cases decodeStatus st with
  | none => exact id
  | some n => cases n <;> exact id

end Sys2Proof
end

