-- ==== Sys2Proof/Laws/PerInstr.lean ====
section
/-! SUPPORT. A law per instruction: the word of a well-formed instruction matches its row of the opcode table, under the row's mask
(R101, R104, R261). -/

namespace Sys2Proof.Laws.WordMatches

/-- The row's mask and match, as spec/opcode_table.json writes them. -/
def row : Instr → Nat × Nat
  | .init _ => (0xC0000000, 0x80000000)
  | .submitW _ => (0xFF000000, 0x40000000)
  | .submitR _ => (0xFF000000, 0x60000000)
  | .evStart _ _ => (0xFFFF00F8, 0x00000008)
  | .evRepeatStart _ _ => (0xFFFF00F8, 0x00000010)
  | .evAddrAckW _ _ => (0xFFFF00F8, 0x00000018)
  | .evAddrNackW _ _ => (0xFFFF00F8, 0x00000020)
  | .evDataAckW _ _ => (0xFFFF00F8, 0x00000028)
  | .evDataNackW _ _ => (0xFFFF00F8, 0x00000030)
  | .evAddrAckR _ _ => (0xFFFF00F8, 0x00000040)
  | .evAddrNackR _ _ => (0xFFFF00F8, 0x00000048)
  | .evDataAckR _ _ => (0xFFFF00F8, 0x00000050)
  | .evDataNackR _ _ => (0xFFFF00F8, 0x00000058)
  | .evOther _ _ => (0xFFFF0000, 0x00000000)
  | .start => (0xFF, 0xA5)
  | .stop => (0xFF, 0x95)
  | .stopStart => (0xFF, 0xB5)
  | .ack => (0xFF, 0xC5)
  | .nack => (0xFF, 0x85)
  | .transmit => (0xFF, 0x85)
  | .stopRx => (0xFF, 0x95)
  | .stopStartRx => (0xFF, 0xB5)
  | .load _ => (0x00, 0x00)
  | .cfg _ _ => (0x00, 0x00)

/-- The word of an instruction as a number. -/
def word (i : Instr) : Nat :=
  match encode i with
  | .record w => w.toNat
  | .controlWrite w => w.toNat
  | .dataWrite b => b.toNat
  | .cfgWrite w => w.toNat
  | .init _ | .submit _ _ | .event _ _ => 0

/-- The word of a well-formed instruction matches its row. -/
def Statement (i : Instr) : Prop := i.wf = true → word i &&& (row i).1 = (row i).2

theorem event_key (st d : Byte) : (eventRecord st d &&& 0xFFFF00F8#32) = (st &&& 0xF8#8).zeroExtend 32 := by
  unfold eventRecord
  apply BitVec.eq_of_getLsbD_eq
  intro i hi
  simp only [BitVec.getLsbD_and, BitVec.getLsbD_append, BitVec.getLsbD_setWidth]
  by_cases h8 : i < 8
  · have : (0xFFFF00F8#32).getLsbD i = (0xF8#8).getLsbD i := by
      have key : ∀ k : Fin 8, (0xFFFF00F8#32).getLsbD k = (0xF8#8).getLsbD k := by decide
      exact key ⟨i, h8⟩
    simp [h8, this]
    omega
  · by_cases h16 : i < 16
    · have : (0xFFFF00F8#32).getLsbD i = false := by
        have key : ∀ k : Fin 16, 8 ≤ k.val → (0xFFFF00F8#32).getLsbD k = false := by decide
        exact key ⟨i, h16⟩ (by simpa using h8)
      simp [h8, this, BitVec.getLsbD_of_ge st i (by omega)]
    · have h1 : ¬ i - 8 < 8 := by omega
      simp [h8, h1, BitVec.getLsbD_of_ge st i (by omega)]

theorem event_other (st d : Byte) : (eventRecord st d).toNat &&& 0xFFFF0000 = 0 := by
  have h : (eventRecord st d).toNat < 2 ^ 16 := by
    rw [eventRecord_toNat]
    have := st.isLt
    have := d.isLt
    omega
  apply Nat.eq_of_testBit_eq
  intro k
  rw [Nat.testBit_and, Nat.zero_testBit]
  by_cases hk : k < 16
  · have : Nat.testBit 0xFFFF0000 k = false := by
      have key : ∀ j : Fin 16, Nat.testBit 0xFFFF0000 j = false := by decide
      exact key ⟨k, hk⟩
    rw [this, Bool.and_false]
  · rw [Nat.testBit_lt_two_pow (Nat.lt_of_lt_of_le h (Nat.pow_le_pow_right (by omega) (by omega))), Bool.false_and]

theorem of_status {n : StatusName} {st d : Byte} (h : statusIs n st = true) :
    (eventRecord st d).toNat &&& 0xFFFF00F8 = (Config.binding.statusCode n).toNat := by
  have hs : st &&& 0xF8#8 = Config.binding.statusCode n := by simpa [statusIs, Config.binding] using h
  have hk := congrArg BitVec.toNat (event_key st d)
  rw [BitVec.toNat_and, hs, BitVec.toNat_setWidth] at hk
  have hlt := (Config.binding.statusCode n).isLt
  rw [Nat.mod_eq_of_lt (by omega)] at hk
  exact hk

theorem top_bits {w m lo : Nat} (hm : m < 2 ^ lo) (k : Nat) :
    (2 ^ lo * w + m) &&& (2 ^ lo * k) = 2 ^ lo * (w &&& k) := by
  apply Nat.eq_of_testBit_eq
  intro j
  rw [Nat.testBit_and, Nat.testBit_two_pow_mul, Nat.testBit_two_pow_mul, Nat.testBit_and,
    Nat.testBit_two_pow_mul_add _ hm]
  by_cases hj : lo ≤ j
  · simp [hj, Nat.not_lt.mpr hj]
  · simp [hj]

theorem init (target : Nat) : Statement (.init target) := by
  intro _
  show (initRecord target).toNat &&& 0xC0000000 = 0x80000000
  rw [initRecord_toNat]
  have h := top_bits (w := 2) (m := target % 2 ^ 30) (lo := 30) (Nat.mod_lt _ (by decide)) 3
  exact h

theorem submitW (r : ReqId) : Statement (.submitW r) := by
  intro _
  show (submitRecord 0 r).toNat &&& 0xFF000000 = 0x40000000
  rw [submitRecord_toNat]
  have h := top_bits (w := 64) (m := r % 2 ^ 24) (lo := 24) (Nat.mod_lt _ (by decide)) 255
  exact h

theorem submitR (r : ReqId) : Statement (.submitR r) := by
  intro _
  show (submitRecord 1 r).toNat &&& 0xFF000000 = 0x60000000
  rw [submitRecord_toNat]
  have h := top_bits (w := 96) (m := r % 2 ^ 24) (lo := 24) (Nat.mod_lt _ (by decide)) 255
  exact h

theorem evStart (st d : Byte) : Statement (.evStart st d) := fun h => of_status h
theorem evRepeatStart (st d : Byte) : Statement (.evRepeatStart st d) := fun h => of_status h
theorem evAddrAckW (st d : Byte) : Statement (.evAddrAckW st d) := fun h => of_status h
theorem evAddrNackW (st d : Byte) : Statement (.evAddrNackW st d) := fun h => of_status h
theorem evDataAckW (st d : Byte) : Statement (.evDataAckW st d) := fun h => of_status h
theorem evDataNackW (st d : Byte) : Statement (.evDataNackW st d) := fun h => of_status h
theorem evAddrAckR (st d : Byte) : Statement (.evAddrAckR st d) := fun h => of_status h
theorem evAddrNackR (st d : Byte) : Statement (.evAddrNackR st d) := fun h => of_status h
theorem evDataAckR (st d : Byte) : Statement (.evDataAckR st d) := fun h => of_status h
theorem evDataNackR (st d : Byte) : Statement (.evDataNackR st d) := fun h => of_status h
theorem evOther (st d : Byte) : Statement (.evOther st d) := fun _ => event_other st d
theorem start : Statement .start := fun _ => rfl
theorem stop : Statement .stop := fun _ => rfl
theorem stopStart : Statement .stopStart := fun _ => rfl
theorem ack : Statement .ack := fun _ => rfl
theorem nack : Statement .nack := fun _ => rfl
theorem transmit : Statement .transmit := fun _ => rfl
theorem stopRx : Statement .stopRx := fun _ => rfl
theorem stopStartRx : Statement .stopStartRx := fun _ => rfl
theorem load (b : Byte) : Statement (.load b) := fun _ => Nat.and_zero _
theorem cfg (divider : Byte) (prescaler : Nat) : Statement (.cfg divider prescaler) := fun _ => Nat.and_zero _

end Sys2Proof.Laws.WordMatches
end

