-- ==== Sys2Proof/Laws/Safety.lean ====
section
/-! SUPPORT. The small lemmas of the counts and predicates that claims are made in. -/

namespace Sys2Proof.Machine

@[simp] theorem releases_nil (r : ReqId) : releases r [] = 0 := rfl

@[simp] theorem releases_append (r : ReqId) (a b : List Action) : releases r (a ++ b) = releases r a + releases r b :=
  List.countP_append

@[simp] theorem releases_cons_release (r x : ReqId) (o : Tag) (t : List Action) :
    releases r (.release x o :: t) = releases r t + if x = r then 1 else 0 := by
  unfold releases; rw [List.countP_cons]; by_cases h : x = r <;> simp [h]

@[simp] theorem releases_cons_cmd (r : ReqId) (c : Command) (t : List Action) :
    releases r (.cmd c :: t) = releases r t := by
  unfold releases; rw [List.countP_cons]; simp

@[simp] theorem releases_cons_load (r : ReqId) (b : Byte) (t : List Action) :
    releases r (.load b :: t) = releases r t := by
  unfold releases; rw [List.countP_cons]; simp

@[simp] theorem releases_cons_cfg (r : ReqId) (d p : Nat) (t : List Action) :
    releases r (.cfg d p :: t) = releases r t := by
  unfold releases; rw [List.countP_cons]; simp

@[simp] theorem releases_cons_callback (r x : ReqId) (p : Option Byte) (t : List Action) :
    releases r (.callback x p :: t) = releases r t := by
  unfold releases; rw [List.countP_cons]; simp

@[simp] theorem writeCallbacks_nil (r : ReqId) : writeCallbacks r [] = 0 := rfl

@[simp] theorem writeCallbacks_append (r : ReqId) (a b : List Action) :
    writeCallbacks r (a ++ b) = writeCallbacks r a + writeCallbacks r b := List.countP_append

@[simp] theorem writeCallbacks_cons_none (r x : ReqId) (t : List Action) :
    writeCallbacks r (.callback x none :: t) = writeCallbacks r t + if x = r then 1 else 0 := by
  unfold writeCallbacks; rw [List.countP_cons]; by_cases h : x = r <;> simp [h]

@[simp] theorem writeCallbacks_cons_some (r x : ReqId) (v : Byte) (t : List Action) :
    writeCallbacks r (.callback x (some v) :: t) = writeCallbacks r t := by
  unfold writeCallbacks; rw [List.countP_cons]; simp

@[simp] theorem writeCallbacks_cons_cmd (r : ReqId) (c : Command) (t : List Action) :
    writeCallbacks r (.cmd c :: t) = writeCallbacks r t := by
  unfold writeCallbacks; rw [List.countP_cons]; simp

@[simp] theorem writeCallbacks_cons_load (r : ReqId) (b : Byte) (t : List Action) :
    writeCallbacks r (.load b :: t) = writeCallbacks r t := by
  unfold writeCallbacks; rw [List.countP_cons]; simp

@[simp] theorem writeCallbacks_cons_cfg (r : ReqId) (d p : Nat) (t : List Action) :
    writeCallbacks r (.cfg d p :: t) = writeCallbacks r t := by
  unfold writeCallbacks; rw [List.countP_cons]; simp

@[simp] theorem writeCallbacks_cons_release (r x : ReqId) (o : Tag) (t : List Action) :
    writeCallbacks r (.release x o :: t) = writeCallbacks r t := by
  unfold writeCallbacks; rw [List.countP_cons]; simp

/-- Loads and callbacks with a byte count for nothing. -/
theorem counts_of_progress {r x : ReqId} {acts : List Action}
    (h : ∀ a ∈ acts, (∃ b, a = .load b) ∨ ∃ v, a = .callback x (some v)) :
    releases r acts = 0 ∧ writeCallbacks r acts = 0 := by
  induction acts with
  | nil => exact ⟨rfl, rfl⟩
  | cons a t ih =>
    have ht := ih fun b hb => h b (List.mem_cons_of_mem _ hb)
    rcases h a List.mem_cons_self with ⟨b, rfl⟩ | ⟨v, rfl⟩ <;> simp [ht]

theorem State.isReleased_of {s : State} {r : ReqId} {q : Request} (h : s.request r = some q) :
    s.isReleased r = (q.life == .released) := by
  unfold State.isReleased; rw [h]

theorem State.isCompleted_of {s : State} {r : ReqId} {q : Request} (h : s.request r = some q) :
    s.isCompleted r = (q.life == .released && !q.hasCb) := by
  unfold State.isCompleted; rw [h]

/-- The current request is not in the queue (R28). -/
theorem State.LifeInv.current_not_queued {s : State} (h : s.LifeInv) {r : ReqId} (hc : s.current = some r) :
    r ∉ s.queue := by
  intro hm
  obtain ⟨q, hq, hl⟩ := h.queue_queued r hm
  obtain ⟨q', hq', hl'⟩ := h.current_current r hc
  rw [hq, Option.some.injEq] at hq'
  subst hq'
  rw [hl] at hl'
  exact absurd hl' (by decide)

theorem eventBytes_isSome (i : Instr) : (eventBytes i).isSome = i.isEvent := by
  cases i <;> rfl

@[simp] theorem execAll_nil (s : State) : execAll [] s = .next s := rfl

theorem execAll_cons {i : Instr} {s t : State} (h : exec i s = .next t) (is : List Instr) :
    execAll (i :: is) s = execAll is t := by
  rw [execAll, h]

theorem execAll_append {is js : List Instr} {s t : State} (h : execAll is s = .next t) :
    execAll (is ++ js) s = execAll js t := by
  induction is generalizing s with
  | nil => rw [execAll_nil, Host.Outcome.next.injEq] at h; rw [h]; rfl
  | cons i is ih =>
    rw [execAll] at h
    split at h
    · rename_i u hu
      rw [List.cons_append, execAll_cons hu]
      exact ih h
    · exact absurd h (by simp)
    · exact absurd h (by simp)

end Sys2Proof.Machine
end

