-- ==== Sys2Proof/Tests/Slice0.lean ====
section
/-! SUPPORT. Tests with the spec's own expected results (its vectors are named V-…), ill-formed terms, and for each obligation with
hypotheses a witness that meets them together. -/

namespace Sys2Proof.Tests

open Sys2Proof.Machine

/-! ### Small states -/

/-- The state after a successful `init 100000` with the clock of the vectors, and a device 0. -/
def ready : State :=
  { State.reset with coreClock := 16000000, config := some { divider := 72, prescaler := 1 }, devs := [(0, { addr := 0x50 })] }

/-- A request of device 0. -/
def reqWith (buf : List Byte) (cursor remaining : Nat) (cb : Bool) (life : Life) : Request :=
  { dir := .write, device := 0, buf := Memory.ofBytes buf, cursor := cursor, remaining := remaining, hasCb := cb, life := life }

/-- Request 1 is current, and nothing is queued. -/
def serving (buf : List Byte) (cursor remaining : Nat) (cb : Bool) : State :=
  { ready with
    busState := .active, current := some 1, armed := true
    reqs := [(1, reqWith buf cursor remaining cb .current)] }

/-- Request 1 is current, and request 7 is queued. -/
def servingNext (buf : List Byte) (cursor remaining : Nat) (cb : Bool) : State :=
  { serving buf cursor remaining cb with
    queue := [7], reqs := [(1, reqWith buf cursor remaining cb .current), (7, reqWith [0x09] 0 1 false .queued)] }

/-- Idle, with request 1 still to be submitted. -/
def waiting : State := { ready with reqs := [(1, reqWith [0x01] 0 1 false .fresh)] }

/-- Idle, with request 5 queued and request 6 still to be submitted: what the default arm leaves (V-SU-8). -/
def orphaned : State :=
  { ready with queue := [5], reqs := [(5, reqWith [0x02] 0 1 false .queued), (6, reqWith [0x03] 0 1 false .fresh)] }

/-- The state with an input to deliver. -/
def withInput (s : State) (x : Input) : State := { s with inputs := [x] }

/-- The next state of an outcome. -/
def nextOf : Host.Outcome State Fault Refusal → Option State
  | .next t => some t
  | .fault _ => none
  | .refused _ => none

/-- The trace of the next state. -/
def traceOf (o : Host.Outcome State Fault Refusal) : Option (List Action) := (nextOf o).map fun t => t.trace

theorem nextOf_eq {o : Host.Outcome State Fault Refusal} (h : (nextOf o).isSome = true) : ∃ t, o = .next t := by
  cases o with
  | next t => exact ⟨t, rfl⟩
  | fault f => simp [nextOf] at h
  | refused r => simp [nextOf] at h

/-! ### WellFormed refuses each ill-formed term (R104) -/

theorem test_wf_init : (Instr.init (2 ^ 30)).wf = false ∧ (Instr.init (2 ^ 30 - 1)).wf = true := by decide
theorem test_wf_submitW : (Instr.submitW (2 ^ 24)).wf = false ∧ (Instr.submitW (2 ^ 24 - 1)).wf = true := by decide
theorem test_wf_submitR : (Instr.submitR (2 ^ 24)).wf = false ∧ (Instr.submitR (2 ^ 24 - 1)).wf = true := by decide
theorem test_wf_evStart : (Instr.evStart 0x10 0).wf = false ∧ (Instr.evStart 0x0F 0).wf = true := by decide
theorem test_wf_evRepeatStart : (Instr.evRepeatStart 0x08 0).wf = false := by decide
theorem test_wf_evAddrAckW : (Instr.evAddrAckW 0x20 0).wf = false := by decide
theorem test_wf_evAddrNackW : (Instr.evAddrNackW 0x18 0).wf = false := by decide
theorem test_wf_evDataAckW : (Instr.evDataAckW 0x30 0).wf = false := by decide
theorem test_wf_evDataNackW : (Instr.evDataNackW 0x28 0).wf = false := by decide
theorem test_wf_evAddrAckR : (Instr.evAddrAckR 0x48 0).wf = false := by decide
theorem test_wf_evAddrNackR : (Instr.evAddrNackR 0x40 0).wf = false := by decide
theorem test_wf_evDataAckR : (Instr.evDataAckR 0x58 0).wf = false := by decide
theorem test_wf_evDataNackR : (Instr.evDataNackR 0x50 0).wf = false := by decide
theorem test_wf_evOther : (Instr.evOther 0x5F 0).wf = false ∧ (Instr.evOther 0x60 0).wf = true := by decide
/-- R9: the largest count of eight bits, and one more. -/
theorem test_fits : (Directive.newRequest 1 0 [] 256 false).fits 8 = false ∧ (Directive.newRequest 1 0 [] 255 false).fits 8 = true := by
  decide
theorem test_wf_cfg : (Instr.cfg 0 256).wf = false ∧ (Instr.cfg 0 255).wf = true := by decide

/-- R10: a code outside the mask, and two names with one code, are refused. -/
theorem test_binding_outside_mask : Config.Binding.ok { Config.binding with statusMask := 0xF0 } = false := by decide
theorem test_binding_not_injective : Config.Binding.ok { Config.binding with statusCode := fun _ => 0x08 } = false := by decide

/-! ### Decoding words written out from the spec's encodings (R104, R261, R271; V-EN-1 to V-EN-16) -/

theorem test_decode_init : decodeTableWord 32 0x800186A0 = some (.init 100000) := by decide
theorem test_decode_submitW : decodeTableWord 32 0x40000001 = some (.submitW 1) := by decide
theorem test_decode_submitR : decodeTableWord 32 0x60000002 = some (.submitR 2) := by decide
theorem test_decode_evStart : decodeTableWord 32 0x0000000B = some (.evStart 0x0B 0) := by decide
theorem test_decode_evRepeatStart : decodeTableWord 32 0x00000010 = some (.evRepeatStart 0x10 0) := by decide
theorem test_decode_evAddrAckW : decodeTableWord 32 0x0000EE1F = some (.evAddrAckW 0x1F 0xEE) := by decide
theorem test_decode_evAddrNackW : decodeTableWord 32 0x00000020 = some (.evAddrNackW 0x20 0) := by decide
theorem test_decode_evDataAckW : decodeTableWord 32 0x00000028 = some (.evDataAckW 0x28 0) := by decide
theorem test_decode_evDataNackW : decodeTableWord 32 0x00000030 = some (.evDataNackW 0x30 0) := by decide
theorem test_decode_evAddrAckR : decodeTableWord 32 0x00000040 = some (.evAddrAckR 0x40 0) := by decide
theorem test_decode_evAddrNackR : decodeTableWord 32 0x00000048 = some (.evAddrNackR 0x48 0) := by decide
theorem test_decode_evDataAckR : decodeTableWord 32 0x00005A50 = some (.evDataAckR 0x50 0x5A) := by decide
theorem test_decode_evDataNackR : decodeTableWord 32 0x0000CD58 = some (.evDataNackR 0x58 0xCD) := by decide
theorem test_decode_evOther : decodeTableWord 32 0x00000038 = some (.evOther 0x38 0) := by decide
theorem test_decode_start : decodeTableWord 8 0xA5 = some .start := by decide
theorem test_decode_stop : decodeTableWord 8 0x95 = some .stop := by decide
theorem test_decode_stopStart : decodeTableWord 8 0xB5 = some .stopStart := by decide
theorem test_decode_ack : decodeTableWord 8 0xC5 = some .ack := by decide
theorem test_decode_nack : decodeTableWord 8 0x85 = some .nack := by decide
/-- The words of TRANSMIT, STOP_RX and STOP_START_RX are those of NACK, STOP and STOP_START (R261; log entry 10). -/
theorem test_words_coincide :
    encode .transmit = .controlWrite 0x85 ∧ encode .stopRx = .controlWrite 0x95 ∧ encode .stopStartRx = .controlWrite 0xB5 := by
  decide
theorem test_decode_load : decodePacket (.dataWrite 0x5A) = .ok (.load 0x5A) := by decide
theorem test_decode_cfg : decodeTableWord 16 0x0148 = some (.cfg 72 1) := by decide
theorem test_decode_reserved : decodeTableWord 32 0xC0000000 = none ∧ decodeTableWord 32 0x00FF0018 = none := by decide

/-- The script forms (R106, R107): a name stands for its code. -/
theorem test_script :
    (ScriptLine.evName .dataAckR 0x5A).toInput = .packet (.event 0x50 0x5A) ∧
    (ScriptLine.submitW 1).toInput = .packet (.submit 1 .write) := by decide

/-- R36, R37, R92: fields of registers. -/
theorem test_fields : statusField 0x0B = 1 ∧ statusPrescaler 0x0B = 3 ∧ addrByte 0x50 .read = 0xA1 ∧ addrByte 0x7F .read = 0xFF := by
  decide

/-! ### One step each: the spec's vectors -/

/-- V-IN-1, V-IN-3, V-IN-4, V-IN-8. -/
theorem test_init_ok :
    traceOf (execInit 100000 State.reset) = some [.cfg 72 1] ∧ traceOf (execInit 300000 State.reset) = some [.cfg 18 1] ∧
    traceOf (execInit 1000000 State.reset) = some [.cfg 0 1] ∧ traceOf (execInit 30304 State.reset) = some [.cfg 255 1] := by
  decide

/-- V-IN-5, V-IN-7, V-IN-9, V-IN-11. -/
theorem test_init_error :
    (nextOf (execInit 1000001 State.reset)).map (fun t => (t.initResult, t.config, t.trace)) =
      some (some (.error .configError), none, []) ∧
    (nextOf (execInit 2000000 State.reset)).map (fun t => t.initResult) = some (some (.error .configError)) ∧
    (nextOf (execInit 30303 State.reset)).map (fun t => t.initResult) = some (some (.error .configError)) ∧
    (nextOf (execInit 0 State.reset)).map (fun t => t.initResult) = some (some (.error .configError)) := by decide

/-- V-IN-3, V-IN-8: the effective frequencies. -/
theorem test_effective : effectiveHz 16000000 1 18 = 307692 ∧ effectiveHz 16000000 1 255 = 30418 := by decide

/-- V-SU-1. -/
theorem test_submitW :
    (nextOf (exec (.submitW 1) waiting)).map (fun t => (t.busState, t.current, t.queue, t.armed, t.trace)) =
      some (.active, some 1, [], true, [.cmd .start]) := by decide

/-- V-SU-8: the head starts, not the newly submitted request. -/
theorem test_submitR_head :
    (nextOf (exec (.submitR 6) orphaned)).map (fun t => (t.current, t.queue, t.trace)) = some (some 5, [6], [.cmd .start]) := by decide

/-- V-EV-1 and, with the masked-away bits set, V-EV-7. -/
theorem test_evStart : traceOf (exec (.evStart 0x0B 0) (serving [0x01] 0 1 false)) = some [.load 0xA0, .cmd .transmit] := by decide

/-- V-EV-5: device 0x7F, Read. -/
theorem test_evRepeatStart :
    traceOf (exec (.evRepeatStart 0x10 0) { serving [] 0 1 false with
      devs := [(0, { addr := 0x7F })], reqs := [(1, { reqWith [] 0 1 false .current with dir := .read })] }) =
      some [.load 0xFF, .cmd .transmit] := by decide

/-- V-WR-1. -/
theorem test_evAddrAckW :
    traceOf (exec (.evAddrAckW 0x18 0) (serving [0x01, 0x02] 0 2 false)) = some [.load 0x01, .cmd .transmit] := by decide

/-- V-WR-2: the zero-length write. -/
theorem test_evAddrAckW_zero :
    traceOf (exec (.evAddrAckW 0x18 0) (serving [] 0 0 true)) = some [.callback 1 none, .release 1 .ok, .cmd .stop] := by decide

/-- V-WR-8. -/
theorem test_evAddrNackW :
    traceOf (exec (.evAddrNackW 0x20 0) (serving [0x01] 0 1 true)) = some [.release 1 .addrNack, .cmd .stop] := by decide

/-- V-WR-4. -/
theorem test_evDataAckW :
    (nextOf (exec (.evDataAckW 0x28 0) (serving [0x01, 0x02] 0 2 false))).map (fun t => (t.request 1, t.trace)) =
      some (some (reqWith [0x01, 0x02] 1 1 false .current), [.load 0x02, .cmd .transmit]) := by decide

/-- V-WR-5: chaining. -/
theorem test_evDataAckW_chain :
    (nextOf (exec (.evDataAckW 0x28 0) (servingNext [0x01, 0x02] 1 1 false))).map
      (fun t => (t.current, t.queue, t.busState, t.trace)) =
      some (some 7, [], .active, [.release 1 .ok, .cmd .stopStart]) := by decide

/-- V-WR-9: the counts are left as they were. -/
theorem test_evDataNackW :
    (nextOf (exec (.evDataNackW 0x30 0) (serving [0x01, 0x02] 1 1 true))).map (fun t => (t.request 1, t.trace)) =
      some (some (reqWith [0x01, 0x02] 1 1 true .released), [.release 1 .dataNack, .cmd .stop]) := by decide

/-- V-RD-1. -/
theorem test_evAddrAckR : traceOf (exec (.evAddrAckR 0x40 0) (serving [] 0 3 true)) = some [.cmd .ack] := by decide

/-- V-RD-3: the zero-length read, chaining. -/
theorem test_evAddrAckR_zero :
    traceOf (exec (.evAddrAckR 0x40 0) (servingNext [] 0 0 false)) = some [.release 1 .ok, .cmd .stopStartRx] := by decide

/-- V-RD-9: the TX pair. -/
theorem test_evAddrNackR :
    traceOf (exec (.evAddrNackR 0x48 0) (serving [] 0 1 true)) = some [.release 1 .addrNack, .cmd .stop] := by decide

/-- V-RD-10: the callback, and ACK. The buffer is a draw, and is not looked at. -/
theorem test_evDataAckR :
    (nextOf (exec (.evDataAckR 0x50 0x5A) (serving [0x00, 0x00] 0 3 true))).map
      (fun t => (t.trace, (t.request 1).map fun q => (q.cursor, q.remaining, q.hasCb))) =
      some ([.callback 1 (some 0x5A), .cmd .ack], some (1, 2, true)) := by decide

/-- V-RD-6: NACK at the count's end. -/
theorem test_evDataAckR_last :
    traceOf (exec (.evDataAckR 0x50 0xAB) (serving [0x00] 0 1 true)) = some [.callback 1 (some 0xAB), .cmd .nack] := by decide

/-- V-RD-7. -/
theorem test_evDataNackR :
    traceOf (exec (.evDataNackR 0x58 0xCD) (serving [0x00] 1 0 true)) =
      some [.callback 1 (some 0xCD), .release 1 .ok, .cmd .stopRx] := by decide

/-- V-TE-1: the queue is not drained. -/
theorem test_evOther :
    (nextOf (exec (.evOther 0x38 0) (servingNext [] 0 1 false))).map (fun t => (t.busState, t.current, t.queue, t.trace)) =
      some (.idle, none, [7], [.release 1 .unexpected, .cmd .stop]) := by decide

/-- R262, R271: the primitives as steps; a LOAD collides only where no event is pending. -/
theorem test_primitives :
    (nextOf (exec .stopRx (serving [] 0 0 false))).map (fun t => (t.armed, t.controlReg)) = some (false, 0x95) ∧
    (nextOf (exec .stopStartRx ready)).map (fun t => (t.armed, t.controlReg)) = some (true, 0xB5) ∧
    (nextOf (exec (.load 0x5A) ready)).map (fun t => (t.armed, t.dataReg)) = some (false, 0x5A) ∧
    (nextOf (exec (.load 0x5A) ready)).map (fun t => (t.controlReg, t.writeCollision)) = some (0x00, true) ∧
    (nextOf (exec (.load 0x5A) (serving [] 0 0 false))).map (fun t => t.writeCollision) = some false ∧
    (nextOf (exec (.evStart 0x08 0) { serving [] 0 1 false with writeCollision := true })).map (fun t => t.writeCollision) =
      some false ∧
    (nextOf (exec (.cfg 72 64) ready)).map (fun t => (t.dividerReg, t.statusReg)) = some (72, 0xFB) := by decide

/-- V-EV-8, V-WR-3, V-WR-6, V-WR-7: faults, the step rolled back. -/
theorem test_faults :
    nextOf (exec (.evDataAckW 0x28 0) ready) = some { ready with fault := some .spuriousEvent } ∧
    nextOf (exec (.evAddrAckW 0x18 0) (serving [] 0 1 false)) = some { serving [] 0 1 false with fault := some .bufBounds } ∧
    nextOf (exec (.evDataAckW 0x28 0) (serving [] 0 0 false)) = some { serving [] 0 0 false with fault := some .remUnderflow } ∧
    nextOf (exec (.evDataAckW 0x28 0) (serving [0x11, 0x22] 1 2 true)) =
      some { serving [0x11, 0x22] 1 2 true with fault := some .bufBounds } := by decide

/-- R9: with counts of eight bits, the largest count is taken and one more is refused. -/
theorem test_count_range :
    (nextOf (step (withInput { waiting with remWidth := 8 } (.directive (.newRequest 2 0 [] 255 false))))).map
      (fun t => (t.request 2).map fun q => q.remaining) = some (some 255) ∧
    nextOf (step (withInput { waiting with remWidth := 8 } (.directive (.newRequest 2 0 [] 256 false)))) = none := by decide

/-- The opcode-table word placed next runs as the first instruction after reset. -/
theorem test_fetch : nextOf (step (State.reset.withFetchWord 32 0x800186A0)) = nextOf (exec (.init 100000) State.reset) ∧
    (nextOf (exec (.init 100000) State.reset)).isSome = true := by decide

/-- The peripheral's duty (R274): after SLA+W it may report an acknowledge, and not a received byte. -/
theorem test_duty :
    State.defaultMayReport { ready with trace := [.cmd .start, .load 0xA0, .cmd .transmit] } 0x18 = true ∧
    State.defaultMayReport { ready with trace := [.cmd .start, .load 0xA0, .cmd .transmit] } 0x50 = false := by decide

/-- Buffers: writing what an unlisted offset reads as removes the cell (log entry 22). -/
theorem test_memory :
    (Memory.ofBytes [0x01, 0x00, 0x02]).cells = [(0, 0x01), (2, 0x02)] ∧
    (Memory.ofBytes [0x01]).write 0 0x00 = Memory.ofBytes [0x00] ∧ (Memory.ofBytes [0x01]).read 1 = none := by decide

/-! ### Witnesses: the hypotheses of each obligation, met together -/

theorem nextOf_some {o : Host.Outcome State Fault Refusal} {t : State} (h : nextOf o = some t) : o = .next t := by
  obtain ⟨u, hu⟩ := nextOf_eq (o := o) (by rw [h]; rfl)
  rw [hu, nextOf, Option.some.injEq] at h
  rw [hu, h]

theorem witness_StatusNameIffCode :
    Config.binding.ok = true ∧ Config.Binding.ok { Config.binding with statusMask := 0xFF } = true := by decide

/-- Every input instruction at a boundary of its operands. -/
theorem witness_RecordsRoundTrip :
    ∀ i ∈ [Instr.init 0, .init (2 ^ 30 - 1), .submitW (2 ^ 24 - 1), .submitR 0, .evStart 0x0F 0xFF, .evRepeatStart 0x10 0,
      .evAddrAckW 0x18 0, .evAddrNackW 0x20 0, .evDataAckW 0x28 0, .evDataNackW 0x30 0, .evAddrAckR 0x40 0, .evAddrNackR 0x48 0,
      .evDataAckR 0x57 0xFF, .evDataNackR 0x5F 0, .evOther 0x38 0xFF],
      i.isInput = true ∧ i.wf = true := by decide

theorem witness_AcceptedRecordsEncodeBack :
    decodeTableWord 32 0x0000FF57 = some (.evDataAckR 0x57 0xFF) ∧ decodeTableWord 32 0xBFFFFFFF = some (.init 1073741823) := by
  decide

theorem witness_PrimitiveWordsDecode : Instr.nack ∈ [Instr.start, .stop, .stopStart, .ack, .nack] ∧ 255 < 256 := by decide

theorem witness_StepRunsDecoded :
    (withInput ready (.packet (.event 0x08 0))).Running ∧
    (withInput ready (.packet (.event 0x08 0))).inputs = .packet (.event 0x08 0) :: [] ∧
    decodePacket (.event 0x08 0) = .ok (.evStart 0x08 0) := ⟨by decide, rfl, by rfl⟩

theorem witness_FetchWordRuns : ready.Running ∧ decodeTableWord 8 0xA5 = some .start := by decide

theorem witness_RefusedRecordsSetMark :
    (withInput ready (.packet (.record 0xC0000000))).Running ∧ decodeRecord 0xC0000000 = .error .reservedKind ∧
    (withInput ready (.packet (.record 0x00010008))).Running ∧ decodeRecord 0x00010008 = .error .reservedBits :=
  ⟨by decide, by rfl, by decide, by rfl⟩

theorem witness_MarksAreSticky :
    State.fault { ready with fault := some .bufBounds } = some .bufBounds ∧
    State.fault { ready with refused := some .idInUse } = none ∧
    State.refused { ready with refused := some .idInUse } = some .idInUse := by decide

theorem witness_FaultDiscardsStep :
    ∃ t, exec (.evDataAckW 0x28 0) (serving [] 0 0 false) = .next t ∧ t.fault ≠ none :=
  ⟨{ serving [] 0 0 false with fault := some .remUnderflow }, nextOf_some (by decide), by decide⟩

theorem witness_NewDeviceCreates :
    (withInput ready (.directive (.newDevice 1 0x3C))).Running ∧ ready.device 1 = none ∧
    (ready.device 0).isSome = true := by decide

/-- Every clause, the identifier in use with the device missing too, and the counts where the clauses meet. -/
theorem witness_NewRequestCreates :
    (withInput waiting (.directive (.newRequest 2 0 [0x01] 4294967295 true))).Running ∧ 4294967295 < 2 ^ waiting.remWidth ∧
    2 ^ waiting.remWidth ≤ 4294967296 ∧ waiting.request 2 = none ∧
    (waiting.device 0).isSome = true ∧ (waiting.request 1).isSome = true ∧ waiting.device 9 = none := by decide

/-- The identifier 1 is in use and the device 9 is missing: the model's choice (log entry 21). -/
theorem witness_NewRequestCreates_both :
    (withInput waiting (.directive (.newRequest 1 9 [0x01] 1 true))).Running ∧ 1 < 2 ^ waiting.remWidth ∧
    (waiting.request 1).isSome = true ∧ waiting.device 9 = none ∧
    nextOf (step (withInput waiting (.directive (.newRequest 1 9 [0x01] 1 true)))) =
      some { waiting with refused := some .idInUse } := by decide

/-- The last byte of the buffer. -/
theorem witness_HostWriteReachesBuffer :
    (withInput (serving [0x01, 0x02] 0 2 false) (.directive (.bufWrite 1 1 0xFF))).Running ∧
    (serving [0x01, 0x02] 0 2 false).request 1 = some (reqWith [0x01, 0x02] 0 2 false .current) ∧
    1 < (reqWith [0x01, 0x02] 0 2 false .current).buf.len := by decide

/-- The divider 0 and the largest one. -/
theorem witness_InitConfigures :
    ∀ target ∈ [1000000, 30304], State.reset.Running ∧ State.reset.config = none ∧ 0 < target ∧
      16 * target ≤ State.reset.coreClock ∧ (State.reset.coreClock - 16 * target) / (2 * target) ≤ 255 := by decide

theorem witness_InitErrorsAndReinit :
    (State.reset.Running ∧ State.reset.config = none) ∧
    (∀ target ∈ [0, 2000000, 1600001, 1000001, 30303], target = 0 ∨ State.reset.coreClock < 10 * target ∨
      State.reset.coreClock < 16 * target ∨ 255 < (State.reset.coreClock - 16 * target) / (2 * target)) ∧
    ready.Running ∧ ready.config ≠ none := by decide

theorem witness_InitChecksRedundant :
    1 ≤ 1 ∧ 0 < 1000000 ∧ 16 * 1000000 ≤ 16000000 ∧ dividerFor 16000000 1 1000000 ≤ 255 ∧ 16000000 < 10 * 1600001 := by decide

theorem witness_InitFrequencyBounds : initDivider 16000000 1 255 30304 = some 255 := by decide

theorem witness_ConfigurationIsFinal :
    ∃ t, step (withInput (serving [0x01] 0 1 false) (.packet (.event 0x20 0))) = .next t ∧
      State.config (withInput (serving [0x01] 0 1 false) (.packet (.event 0x20 0))) = some { divider := 72, prescaler := 1 } := by
  obtain ⟨t, h⟩ := nextOf_eq (o := step (withInput (serving [0x01] 0 1 false) (.packet (.event 0x20 0)))) (by decide)
  exact ⟨t, h, by decide⟩

/-- Both clauses, in both directions. -/
theorem witness_SubmitStartsHead :
    (∀ i ∈ [(Instr.submitW 1, Direction.write), (.submitR 1, .read)],
      i ∈ [(Instr.submitW 1, Direction.write), (.submitR 1, .read)] ∧ waiting.Running ∧
      waiting.config = some { divider := 72, prescaler := 1 } ∧
      waiting.request 1 = some (reqWith [0x01] 0 1 false .fresh) ∧ waiting.busState = .idle ∧ waiting.queue = []) ∧
    orphaned.Running ∧ orphaned.config = some { divider := 72, prescaler := 1 } ∧
    orphaned.request 6 = some (reqWith [0x03] 0 1 false .fresh) ∧ orphaned.busState = .idle ∧
    orphaned.NextUp 6 5 [] (reqWith [0x02] 0 1 false .queued) := by decide

/-- Active, with request 2 still to be submitted. -/
def busy : State :=
  { serving [0x01] 0 1 false with
    reqs := [(1, reqWith [0x01] 0 1 false .current), (2, reqWith [0x02] 0 1 false .fresh)] }

theorem witness_SubmitQueuesWhileActive :
    (Instr.submitR 2, Direction.read) ∈ [(Instr.submitW 2, Direction.write), (.submitR 2, .read)] ∧
    (Instr.submitW 2, Direction.write) ∈ [(Instr.submitW 2, Direction.write), (.submitR 2, .read)] ∧
    busy.Running ∧ busy.config = some { divider := 72, prescaler := 1 } ∧
    busy.request 2 = some (reqWith [0x02] 0 1 false .fresh) ∧ busy.busState = .active := by decide

theorem witness_SubmitFaults :
    State.reset.Running ∧ State.reset.config = none ∧ ready.Running ∧ ready.config ≠ none ∧ ready.request 9 = none ∧
    (serving [] 0 1 false).Running ∧ (serving [] 0 1 false).config ≠ none ∧
    (serving [] 0 1 false).request 1 = some (reqWith [] 0 1 false .current) ∧
    (reqWith [] 0 1 false .current).life ≠ .fresh := by decide

/-- At the capacity and one below it. -/
theorem witness_QueueOverflowNeedsBound :
    orphaned.Running ∧ orphaned.config ≠ none ∧ orphaned.request 6 = some (reqWith [0x03] 0 1 false .fresh) ∧
    1 ≤ orphaned.queue.length ∧ ¬2 ≤ orphaned.queue.length ∧
    (nextOf (submit (some 1) 6 .write orphaned)).map (fun t => t.fault) = some (some .queueOverflow) ∧
    (nextOf (exec (.submitW 6) orphaned)).isSome = true := by decide

theorem witness_EventsNeedCurrent : (Instr.evStart 0x08 0).isEvent = true ∧ ready.Running ∧ ready.current = none := by decide

theorem witness_ArmedEventsAreExpected :
    (serving [0x01] 0 1 false).ArmedInv ∧ (serving [0x01] 0 1 false).armed = true ∧ (Instr.evStart 0x08 0).isEvent = true ∧
    (nextOf (exec (.evStart 0x08 0) (serving [0x01] 0 1 false))).isSome = true := by decide

theorem witness_DataArmsFault :
    (serving [] 0 0 false).Serving 1 (reqWith [] 0 0 false .current) ∧ (reqWith [] 0 0 false .current).remaining = 0 ∧
    (serving [0x01] 1 1 false).Serving 1 (reqWith [0x01] 1 1 false .current) ∧
    (0 < (reqWith [0x01] 1 1 false .current).remaining ∧ (reqWith [0x01] 1 1 false .current).buf.len ≤ 1) ∧
    (serving [0x01] 0 2 false).Serving 1 (reqWith [0x01] 0 2 false .current) ∧
    (1 < (reqWith [0x01] 0 2 false .current).remaining ∧ (reqWith [0x01] 0 2 false .current).buf.len ≤ 0 + 1) := by decide

/-- The frame, with a request that is neither current nor next, and one that is next. -/
theorem witness_EventsKeepTheRest :
    (Instr.evAddrNackW 0x20 0).isEvent = true ∧ (nextOf (exec (.evAddrNackW 0x20 0) busy)).isSome = true ∧
    (busy.current ≠ some 2 ∧ busy.queue.head? ≠ some 2 ∧ (busy.request 2).isSome = true) ∧
    ((servingNext [] 0 1 false).current ≠ some 7 ∧ ((servingNext [] 0 1 false).request 7).isSome = true) := by decide

theorem witness_OnlyReceivesStore :
    (∀ st d, Instr.evAddrAckW 0x18 0 ≠ .evDataAckR st d ∧ Instr.evAddrAckW 0x18 0 ≠ .evDataNackR st d) ∧
    (nextOf (exec (.evAddrAckW 0x18 0) (serving [0x01] 0 1 false))).isSome = true :=
  ⟨fun _ _ => ⟨by simp, by simp⟩, by decide⟩

/-- Within the buffer and beyond it, in both arms. -/
theorem witness_ReceiveStoresAtCursor :
    (serving [0x00] 0 1 false).Serving 1 (reqWith [0x00] 0 1 false .current) ∧
    (reqWith [0x00] 0 1 false .current).storeOffset = some 0 ∧
    (nextOf (exec (.evDataAckR 0x50 0xAB) (serving [0x00] 0 1 false))).isSome = true ∧
    (serving [0x00] 1 0 false).Serving 1 (reqWith [0x00] 1 0 false .current) ∧
    (reqWith [0x00] 1 0 false .current).storeOffset = none ∧
    (nextOf (exec (.evDataNackR 0x58 0xCD) (serving [0x00] 1 0 false))).isSome = true := by decide

theorem witness_UnusedEventBytesDecideNothing :
    (nextOf (exec (.evStart 0x08 0x00) (serving [] 0 1 false))).isSome = true ∧
    (nextOf (exec (.evStart 0x0B 0xEE) (serving [] 0 1 false))).isSome = true := by decide

theorem witness_StartArmsSendAddress :
    (serving [] 0 1 false).Serving 1 (reqWith [] 0 1 false .current) ∧
    (serving [] 0 1 false).device (reqWith [] 0 1 false .current).device = some { addr := 0x50 } := by decide

theorem witness_AddrAckSendsFirstByte :
    (serving [0x01] 0 1 false).Serving 1 (reqWith [0x01] 0 1 false .current) ∧ 0 < (reqWith [0x01] 0 1 false .current).remaining ∧
    (reqWith [0x01] 0 1 false .current).buf.read 0 = some 0x01 := by decide

theorem witness_DataAckSendsNextByte :
    (serving [0x01, 0x02] 0 2 false).Serving 1 (reqWith [0x01, 0x02] 0 2 false .current) ∧
    1 < (reqWith [0x01, 0x02] 0 2 false .current).remaining ∧
    (reqWith [0x01, 0x02] 0 2 false .current).buf.read (0 + 1) = some 0x02 := by decide

/-- Both instructions, on an empty queue and on one that holds a request. -/
theorem witness_WritesComplete :
    (serving [0x01] 0 1 true).Serving 1 (reqWith [0x01] 0 1 true .current) ∧ (reqWith [0x01] 0 1 true .current).remaining = 1 ∧
    (serving [0x01] 0 1 true).queue = [] ∧
    (servingNext [] 0 0 true).Serving 1 (reqWith [] 0 0 true .current) ∧ (reqWith [] 0 0 true .current).remaining = 0 ∧
    (servingNext [] 0 0 true).NextUp 1 7 [] (reqWith [0x09] 0 1 false .queued) := by decide

theorem witness_NackRecoveryReleases :
    (serving [0x01] 0 1 true).Serving 1 (reqWith [0x01] 0 1 true .current) ∧ (serving [0x01] 0 1 true).queue = [] ∧
    (servingNext [0x01] 0 1 true).Serving 1 (reqWith [0x01] 0 1 true .current) ∧
    (servingNext [0x01] 0 1 true).NextUp 1 7 [] (reqWith [0x09] 0 1 false .queued) := by decide

theorem witness_AddrAckAsksForByte :
    (serving [] 0 3 true).Serving 1 (reqWith [] 0 3 true .current) ∧ 0 < (reqWith [] 0 3 true .current).remaining := by decide

/-- At the count 1, which answers NACK, and at 3. -/
theorem witness_DataAckReceives :
    ((serving [0x00] 0 1 true).Serving 1 (reqWith [0x00] 0 1 true .current) ∧ 0 < (reqWith [0x00] 0 1 true .current).remaining) ∧
    (serving [0x00] 0 3 true).Serving 1 (reqWith [0x00] 0 3 true .current) ∧ 1 < (reqWith [0x00] 0 3 true .current).remaining := by
  decide

theorem witness_ReadsComplete :
    (serving [0x00] 1 0 true).Serving 1 (reqWith [0x00] 1 0 true .current) ∧ (serving [0x00] 1 0 true).queue = [] ∧
    (servingNext [] 0 0 false).Serving 1 (reqWith [] 0 0 false .current) ∧ (reqWith [] 0 0 false .current).remaining = 0 ∧
    (servingNext [] 0 0 false).NextUp 1 7 [] (reqWith [0x09] 0 1 false .queued) := by decide

theorem witness_DefaultArmIdles :
    (servingNext [] 0 1 false).Serving 1 (reqWith [] 0 1 false .current) := by decide

theorem witness_RegistersFollowTheTrace :
    ∃ t, exec (.evStart 0x08 0) (serving [] 0 1 false) = .next t ∧ t.fault = none ∧
      eventBytes (.evStart 0x08 0) = some (0x08, 0) ∧
      t.trace = (serving [] 0 1 false).trace ++ [.load 0xA0] ++ [.cmd .transmit] := by
  obtain ⟨t, h⟩ := nextOf_eq (o := exec (.evStart 0x08 0) (serving [] 0 1 false)) (by decide)
  have hf : (nextOf (exec (.evStart 0x08 0) (serving [] 0 1 false))).map (fun t => (t.fault, t.trace)) =
      some (none, [.load 0xA0, .cmd .transmit]) := by decide
  rw [h, nextOf, Option.map_some, Option.some.injEq, Prod.mk.injEq] at hf
  exact ⟨t, h, hf.1, rfl, hf.2⟩

/-- The last clause, with the flag set. -/
theorem witness_RegistersFollowTheTrace_collision :
    Instr.isEvent .start = false ∧ (∀ b, Instr.start ≠ .load b) ∧
    (nextOf (exec .start { ready with writeCollision := true })).map (fun t => (t.fault, t.writeCollision)) = some (none, true) :=
  ⟨rfl, by simp, by decide⟩

theorem witness_CommandsWriteAndArm :
    ready.Running ∧ (Instr.start, Command.start, 0xA5#8, true) ∈ [(Instr.start, Command.start, 0xA5#8, true),
      (.stop, .stop, 0x95#8, false)] := by decide

/-- Not armed, and armed. -/
theorem witness_LoadAndCfgWriteRegisters :
    ready.Running ∧ ready.armed = false ∧ (serving [] 0 0 false).Running ∧ (serving [] 0 0 false).armed = true := by decide

/-! The invariants hold in a state with a request being served, one queued, one Fresh, one Released and its release in the trace, and
inputs still to come: an event first. -/

/-- A state in the middle of a run. -/
def midRun : State :=
  { ready with
    remWidth := 8, busState := .active, current := some 2, armed := true, queue := [3]
    reqs := [(1, { reqWith [0x01] 1 0 true .released with hasCb := false }), (2, reqWith [0x02] 0 255 true .current),
      (3, reqWith [0x03] 0 1 false .queued), (4, reqWith [] 0 0 false .fresh)]
    trace := [.cmd .start, .callback 1 none, .release 1 .ok, .cmd .stopStart]
    inputs := [.packet (.event 0x20 0), .directive (.newRequest 5 0 [] 255 false)] }

theorem midRun_request (r : ReqId) :
    midRun.request r =
      if r = 1 then some { reqWith [0x01] 1 0 true .released with hasCb := false }
      else if r = 2 then some (reqWith [0x02] 0 255 true .current)
      else if r = 3 then some (reqWith [0x03] 0 1 false .queued)
      else if r = 4 then some (reqWith [] 0 0 false .fresh) else none := by
  simp only [midRun, State.request, Table.get_cons, Table.get_nil, eq_comm]

theorem midRun_steps : ∃ t, step midRun = .next t := nextOf_eq (by decide)

theorem witness_LifeInv : midRun.LifeInv where
  queue_nodup := by decide
  queue_queued := by decide
  current_current r h := by
    have h2 : some 2 = some r := h
    cases h2
    exact ⟨_, rfl, rfl⟩
  queued_in_queue r q hq hl := by
    rw [midRun_request] at hq
    split at hq
    · cases hq; exact absurd hl (by decide)
    split at hq
    · cases hq; exact absurd hl (by decide)
    split at hq
    · rename_i h; subst h; decide
    split at hq
    · cases hq; exact absurd hl (by decide)
    · cases hq
  current_is_current r q hq hl := by
    rw [midRun_request] at hq
    split at hq
    · cases hq; exact absurd hl (by decide)
    split at hq
    · rename_i h; subst h; rfl
    split at hq
    · cases hq; exact absurd hl (by decide)
    split at hq
    · cases hq; exact absurd hl (by decide)
    · cases hq

theorem witness_TraceInv : midRun.TraceInv where
  released_once r := by
    unfold State.isReleased
    rw [midRun_request]
    by_cases h1 : r = 1
    · subst h1; rfl
    · have hr : releases r midRun.trace = 0 := by simp [midRun, Ne.symm h1]
      rw [hr, if_neg h1]
      by_cases h2 : r = 2
      · simp [h2, reqWith]
      · by_cases h3 : r = 3
        · simp [h3, reqWith]
        · by_cases h4 : r = 4
          · simp [h4, reqWith]
          · simp [h2, h3, h4]
  callback_once r := by
    by_cases h1 : r = 1
    · subst h1; decide
    · simp [midRun, Ne.symm h1]
  callback_completed r h := by
    by_cases h1 : r = 1
    · subst h1; rfl
    · simp [midRun, Ne.symm h1] at h

theorem witness_StepKeepsInv : midRun.Inv ∧ ∃ t, step midRun = .next t :=
  ⟨⟨by decide, witness_LifeInv, witness_TraceInv⟩, midRun_steps⟩

theorem witness_StepKeepsArmed : midRun.BusInv ∧ midRun.ArmedInv ∧ midRun.OnlyInputs ∧ ∃ t, step midRun = .next t :=
  ⟨by decide, by decide, by decide, midRun_steps⟩

theorem midRun_forall {P : Request → Prop} (h1 : P { reqWith [0x01] 1 0 true .released with hasCb := false })
    (h2 : P (reqWith [0x02] 0 255 true .current)) (h3 : P (reqWith [0x03] 0 1 false .queued))
    (h4 : P (reqWith [] 0 0 false .fresh)) : ∀ r q, midRun.request r = some q → P q := by
  intro r q hq
  rw [midRun_request] at hq
  split at hq
  · cases hq; exact h1
  split at hq
  · cases hq; exact h2
  split at hq
  · cases hq; exact h3
  split at hq
  · cases hq; exact h4
  · cases hq

theorem witness_StepKeepsCanonical : midRun.CanonicalInv ∧ ∃ t, step midRun = .next t :=
  ⟨⟨by decide, by decide, midRun_forall (by decide) (by decide) (by decide) (by decide)⟩, midRun_steps⟩

theorem witness_StepKeepsRecords : midRun.RecordInv ∧ ∃ t, step midRun = .next t :=
  ⟨⟨midRun_forall (by decide) (by decide) (by decide) (by decide), fun c hc => by
    have hc' : some { divider := 72, prescaler := 1 } = some c := hc
    cases hc'
    decide, by decide⟩, midRun_steps⟩

/-- Counts of eight bits, at their largest value. -/
theorem witness_StepKeepsCounts : midRun.CountsFit ∧ ∃ t, step midRun = .next t :=
  ⟨⟨by decide, midRun_forall (by decide) (by decide) (by decide) (by decide)⟩, midRun_steps⟩

/-- A Released request, and a Current one. -/
theorem witness_LifecycleMovesForward :
    midRun.LifeInv ∧ (∃ t, step midRun = .next t) ∧ (midRun.request 1).map (fun q => q.life) = some .released ∧
    (midRun.request 2).map (fun q => q.life) = some .current :=
  ⟨witness_LifeInv, midRun_steps, by decide, by decide⟩

theorem witness_DevicesAreImmutable : (∃ t, step midRun = .next t) ∧ midRun.device 0 = some { addr := 0x50 } :=
  ⟨midRun_steps, by decide⟩

theorem witness_CursorAndCountBalance : (∃ t, step midRun = .next t) ∧ (midRun.request 2).isSome = true :=
  ⟨midRun_steps, by decide⟩

/-- Both clauses. -/
theorem witness_BusStateHasTwoWriters :
    waiting.busState = .idle ∧ (nextOf (exec (.submitW 1) waiting)).map (fun t => t.busState) = some .active ∧
    (serving [] 0 1 false).busState = .active ∧
    (nextOf (exec (.evOther 0x00 0) (serving [] 0 1 false))).map (fun t => t.busState) = some .idle := by decide

theorem witness_EventsEndInOneCommand :
    (Instr.evStart 0x08 0).isEvent = true ∧
    (nextOf (exec (.evStart 0x08 0) (serving [] 0 1 false))).map (fun t => t.fault) = some none := by decide

theorem witness_TraceOnlyGrows : ∃ t, step midRun = .next t := midRun_steps

/-- A SUBMIT, an event, and another instruction. -/
theorem witness_ServiceIsFifo :
    orphaned.BusInv ∧ (nextOf (exec (.submitW 6) orphaned)).map (fun t => t.fault) = some none ∧
    (servingNext [] 0 1 false).BusInv ∧
    (nextOf (exec (.evAddrNackW 0x20 0) (servingNext [] 0 1 false))).map (fun t => t.fault) = some none ∧
    State.reset.BusInv ∧ (nextOf (exec (.init 100000) State.reset)).map (fun t => t.fault) = some none ∧
    (∀ r, Instr.init 100000 ≠ .submitW r ∧ Instr.init 100000 ≠ .submitR r) :=
  ⟨by decide, by decide, by decide, by decide, by decide, by decide, fun _ => ⟨by simp, by simp⟩⟩

theorem witness_WriteTransferShape :
    (servingNext [0x01, 0x02] 0 2 true).Serving 1 (reqWith [0x01, 0x02] 0 2 true .current) ∧
    (servingNext [0x01, 0x02] 0 2 true).device 0 = some { addr := 0x50 } ∧
    [0x01#8, 0x02#8].length = (reqWith [0x01, 0x02] 0 2 true .current).remaining ∧
    0 < (reqWith [0x01, 0x02] 0 2 true .current).remaining ∧
    (∀ k, k < [0x01#8, 0x02#8].length → (reqWith [0x01, 0x02] 0 2 true .current).buf.read (0 + k) = [0x01#8, 0x02#8][k]?) ∧
    (servingNext [0x01, 0x02] 0 2 true).queue.head? ≠ some 1 := by decide

theorem witness_ReadTransferShape :
    (servingNext [0x00] 0 2 true).Serving 1 (reqWith [0x00] 0 2 true .current) ∧
    (reqWith [0x00] 0 2 true .current).remaining = [0xAA#8].length + 1 ∧ (servingNext [0x00] 0 2 true).queue.head? ≠ some 1 := by
  decide

end Sys2Proof.Tests
end

/-! PROOFS. The status decode under an arbitrary binding (R10, R96), and the fields of the address byte (R92). -/

namespace Sys2Proof

/-! ### The status decode -/

@[simp] theorem StatusName.mem_all (n : StatusName) : n ∈ StatusName.all := by
  cases n <;> decide

/-- The check of R10 as the two conditions it stands for. -/
theorem Config.Binding.ok_iff (b : Config.Binding) :
    b.ok = true ↔
      (∀ n, b.statusCode n &&& b.statusMask = b.statusCode n) ∧ Function.Injective b.statusCode := by
  simp [Config.Binding.ok, Function.Injective, forall_and, imp_iff_not_or]

theorem Config.Binding.statusCode_injective {b : Config.Binding} (h : b.ok = true) : Function.Injective b.statusCode :=
  (b.ok_iff.mp h).2

/-- A byte is OTHER exactly if its key is no name's code; this needs nothing of the binding. -/
theorem decodeStatusWith_eq_none_iff (b : Config.Binding) (st : Byte) :
    decodeStatusWith b st = none ↔ ∀ n, b.statusCode n ≠ statusKey b st := by
  simp [decodeStatusWith]

/-- The name the decode finds has the key as its code; this too needs nothing of the binding. -/
theorem statusCode_of_decodeStatusWith {b : Config.Binding} {st : Byte} {n : StatusName}
    (h : decodeStatusWith b st = some n) : b.statusCode n = statusKey b st :=
  eq_of_beq (List.find?_some (p := fun n => b.statusCode n == statusKey b st) h)

/-- Under distinct codes the first match is the only one, so the search answers every name whose code is the key. -/
theorem decodeStatusWith_eq_some_iff {b : Config.Binding} (inj : Function.Injective b.statusCode) (st : Byte)
    (n : StatusName) : decodeStatusWith b st = some n ↔ b.statusCode n = statusKey b st := by
  refine ⟨statusCode_of_decodeStatusWith, fun hn => ?_⟩
  cases hm : decodeStatusWith b st with
  | none => exact absurd hn ((decodeStatusWith_eq_none_iff b st).mp hm n)
  | some m => rw [inj ((statusCode_of_decodeStatusWith hm).trans hn.symm)]

/-- Settles O2: R10's check makes the codes distinct, and the decode searches all names for the key. -/
theorem statusNameIffCode : Obligations.StatusNameIffCode := by
  intro b hb st
  exact ⟨decodeStatusWith_eq_some_iff (Config.Binding.statusCode_injective hb) st, decodeStatusWith_eq_none_iff b st⟩

end Sys2Proof

namespace Sys2Proof.Machine

/-! ### The address byte -/

/-- The direction of R92's bit 0: 0 is a Write, 1 a Read. -/
def directionOfBit (bit : Bool) : Direction := if bit then .read else .write

@[simp] theorem decide_directionOfBit (bit : Bool) : decide (directionOfBit bit = .read) = bit := by
  cases bit <;> rfl

/-- The shift and the OR of R92 put the direction bit below the address. -/
theorem addrByte_eq_concat (addr : BusAddr) (dir : Direction) : addrByte addr dir = addr.concat (decide (dir = .read)) := by
  refine BitVec.eq_of_getLsbD_eq fun i hi => ?_
  cases i with
  | zero => cases dir <;> simp [addrByte, rwBit]
  | succ i => cases dir <;> simp [addrByte, rwBit, hi, BitVec.getLsbD_eq_getElem (Nat.lt_of_succ_lt_succ hi)]

/-- Every byte is its bits 7..1 with its bit 0 below them. -/
theorem concat_high_bits_bit0 (b : Byte) : (b.extractLsb' 1 7).concat (b.getLsbD 0) = b := by
  refine BitVec.eq_of_getLsbD_eq fun i hi => ?_
  cases i with
  | zero => exact BitVec.getLsbD_concat_zero
  | succ i => simp [Nat.add_comm 1, Nat.lt_of_succ_lt_succ hi]

/-- Settles O8: the address byte is the address with the direction bit below it, and every byte splits that way. -/
theorem addressByteFields : Obligations.AddressByteFields := by
  refine ⟨fun addr dir => ?_, fun b => ⟨b.extractLsb' 1 7, directionOfBit (b.getLsbD 0), ?_⟩⟩
  · rw [addrByte_eq_concat]
    exact ⟨BitVec.extractLsb'_append_eq_left, BitVec.getLsbD_concat_zero⟩
  · rw [addrByte_eq_concat, decide_directionOfBit, concat_high_bits_bit0]

end Sys2Proof.Machine

/-! PROOFS. The START-class events send the address byte (R172 to R174). -/

namespace Sys2Proof.Machine

/-! ### Sending a byte -/

/-- A byte loaded and transmitted: the LOAD precedes the command, an event is owed again, and beside these only registers are
written (R76, R262, R271). -/
theorem State.load_command_transmit (s : State) (b : Byte) :
    (s.load b).command .transmit = { s with
      armed := true, trace := s.trace ++ [.load b, .cmd .transmit]
      dataReg := b, controlReg := Config.ctrlWord .transmit, writeCollision := false } := by
  have htrace : s.trace ++ [.load b] ++ [.cmd .transmit] = s.trace ++ [.load b, .cmd .transmit] := List.append_assoc ..
  rw [← htrace]
  rfl

/-! ### The address phase -/

theorem exec_startClass {i : Instr} {st d : Byte} (hi : i = .evStart st d ∨ i = .evRepeatStart st d) (s : State) :
    exec i s = event st d addressPhase s := by
  obtain rfl | rfl := hi <;> rfl

theorem addressPhase_of_device {t : State} {q : Request} {dev : Device} (h : t.device q.device = some dev) (r : ReqId) :
    addressPhase t r q = .ok ((t.load (addrByte dev.addr q.dir)).command .transmit) := by
  unfold addressPhase
  rw [h]

/-- A served START-class event latches the status and data bytes, then loads and transmits the address byte. -/
theorem exec_startClass_serving {i : Instr} {s : State} {r : ReqId} {q : Request} {dev : Device} {st d : Byte}
    (hi : i = .evStart st d ∨ i = .evRepeatStart st d) (hs : s.Serving r q) (hdev : s.device q.device = some dev) :
    exec i s = .next (((s.latch st d).load (addrByte dev.addr q.dir)).command .transmit) := by
  have hlatched : (s.latch st d).device q.device = some dev := hdev
  rw [exec_startClass hi, event_serving hs, addressPhase_of_device hlatched]
  rfl

/-- Settles O34: the latch touches only registers and the arming, and the send after it adds the two actions and arms again. -/
theorem startArmsSendAddress : Obligations.StartArmsSendAddress := by
  intro s r q dev st d i hi hs hdev
  refine ⟨_, exec_startClass_serving hi hs hdev, ?_⟩
  rw [State.load_command_transmit]
  rfl

end Sys2Proof.Machine

/-! PROOFS. How a request ends without completing: NACK-recovery and the default arm (R232 to R234, R239, R240). -/

namespace Sys2Proof.Machine

/-! ### A served event whose arm raises nothing (R170) -/

theorem event_serving_ok {s u : State} {r : ReqId} {q : Request} {st d : Byte}
    {arm : State → ReqId → Request → Except Fault State} (hs : s.Serving r q) (harm : arm (s.latch st d) r q = .ok u) :
    event st d arm s = .next u := by
  rw [event_serving hs, harm]
  rfl

/-! ### Ending the current request -/

theorem State.request_endRequest_other (s : State) {r n : ReqId} (hn : n ≠ r) (q : Request) (o : Tag) :
    (s.endRequest r q o).request n = s.request n := Table.get_put_other _ hn _

/-- A request ends on an empty queue: the release precedes the mode's STOP, and the bus idles (R233). -/
theorem State.endRequest_drainOrIdle_idle {s : State} (hqueue : s.queue = []) (r : ReqId) (q : Request) (o : Tag)
    (m : StopMode) :
    (s.endRequest r q o).drainOrIdle m = { s with
      armed := false, busState := .idle, current := none, controlReg := 0x95
      reqs := Table.put s.reqs r { q with life := .released }
      trace := s.trace ++ [.release r o, .cmd m.stop] } := by
  rw [State.drainOrIdle_idle (s := s.endRequest r q o) hqueue, List.append_cons s.trace]
  rfl

/-- A request ends with another one up next: the release precedes the mode's STOP-then-START, and the head of the queue, whose
record the release left alone, becomes current (R233). -/
theorem State.endRequest_drainOrIdle_next {s : State} {r n : ReqId} {rest : List ReqId} {qn : Request}
    (hnext : s.NextUp r n rest qn) (q : Request) (o : Tag) (m : StopMode) :
    (s.endRequest r q o).drainOrIdle m = { s with
      armed := true, current := some n, queue := rest, controlReg := 0xB5
      reqs := Table.put (Table.put s.reqs r { q with life := .released }) n { qn with life := .current }
      trace := s.trace ++ [.release r o, .cmd m.chain] } := by
  obtain ⟨hqueue, hne, hrec⟩ := hnext
  have hrec' : (s.endRequest r q o).request n = some qn := (s.request_endRequest_other hne q o).trans hrec
  rw [State.drainOrIdle_next (s := s.endRequest r q o) hqueue hrec', List.append_cons s.trace]
  rfl

/-! ### NACK-recovery -/

/-- The three served NACK events latch their bytes, then run NACK-recovery with their tag (R192, R195, R212). -/
theorem exec_nack_serving {i : Instr} {o : Tag} {s : State} {r : ReqId} {q : Request} {st d : Byte}
    (hi : (i, o) ∈ [(Instr.evAddrNackW st d, Tag.addrNack), (.evAddrNackR st d, .addrNack), (.evDataNackW st d, .dataNack)])
    (hs : s.Serving r q) : exec i s = .next ((s.latch st d).nackRecovery r q o) := by
  have harm : exec i s = event st d (fun t cur q => .ok (t.nackRecovery cur q o)) s := by
    simp only [List.mem_cons, Prod.mk.injEq, List.not_mem_nil, or_false] at hi
    obtain ⟨rfl, rfl⟩ | ⟨rfl, rfl⟩ | ⟨rfl, rfl⟩ := hi <;> rfl
  rw [harm, event_serving_ok hs rfl]

/-- Settles O38: the latch leaves queue and records alone, so NACK-recovery after it ends the request and drains as from `s`. -/
theorem nackRecoveryReleases : Obligations.NackRecoveryReleases := by
  intro s r q st d i o hs hi
  refine ⟨_, exec_nack_serving hi hs, fun hqueue => ?_, fun n rest qn hnext => ?_⟩
  · have hlatched : (s.latch st d).queue = [] := hqueue
    rw [State.nackRecovery, State.endRequest_drainOrIdle_idle hlatched]
    rfl
  · have hlatched : (s.latch st d).NextUp r n rest qn := hnext
    rw [State.nackRecovery, State.endRequest_drainOrIdle_next hlatched]
    rfl

/-! ### The default arm -/

/-- Ending a request on an idled bus with STOP, whatever the queue holds (R240). -/
theorem State.endRequest_idle_stop (s : State) (r : ReqId) (q : Request) (o : Tag) :
    ({ s.endRequest r q o with busState := .idle } : State).command .stop = { s with
      armed := false, busState := .idle, current := none, controlReg := Config.ctrlWord .stop
      reqs := Table.put s.reqs r { q with life := .released }
      trace := s.trace ++ [.release r o, .cmd .stop] } := by
  rw [List.append_cons s.trace]
  rfl

theorem exec_evOther_serving {s : State} {r : ReqId} {q : Request} {st d : Byte} (hs : s.Serving r q) :
    exec (.evOther st d) s =
      .next (({ (s.latch st d).endRequest r q .unexpected with busState := .idle } : State).command .stop) := by
  change execEvOther st d s = _
  rw [execEvOther, event_serving_ok hs rfl]

/-- Settles O42: the arm never looks at the queue, so one equation holds for every queue. -/
theorem defaultArmIdles : Obligations.DefaultArmIdles := by
  intro s r q st d hs
  refine ⟨_, exec_evOther_serving hs, ?_⟩
  rw [State.endRequest_idle_stop]
  rfl

end Sys2Proof.Machine

/-! PROOFS. The input record: reading it, refusing it, and writing it (R96, R101, R104, R109, R110). -/

namespace Sys2Proof

/-! ### Events by their status name -/

theorem decodeStatus_eq_some_iff (st : Byte) (n : StatusName) : decodeStatus st = some n ↔ statusIs n st = true := by
  have hinj : Function.Injective Config.binding.statusCode := Config.Binding.statusCode_injective (by decide)
  rw [statusIs, beq_iff_eq, eq_comm (a := st &&& _)]
  exact decodeStatusWith_eq_some_iff hinj st n

theorem decodeStatus_eq_none_iff (st : Byte) : decodeStatus st = none ↔ statusIsOther st = true := by
  rw [decodeStatus, decodeStatusWith_eq_none_iff]
  simp only [statusIsOther, List.all_eq_true, StatusName.mem_all, forall_true_left, Bool.not_eq_true', statusIs,
    beq_eq_false_iff_ne]
  exact forall_congr' fun n => ne_comm

/-- The event instructions are what a decoded status selects, once per name and once for OTHER (R101). -/
theorem exists_eventInstr {i : Instr} (h : i.isEvent = true) : ∃ n st d, i = eventInstr n st d := by
  cases i with
  | evStart st d => exact ⟨some .start, st, d, rfl⟩
  | evRepeatStart st d => exact ⟨some .repeatStart, st, d, rfl⟩
  | evAddrAckW st d => exact ⟨some .addrAckW, st, d, rfl⟩
  | evAddrNackW st d => exact ⟨some .addrNackW, st, d, rfl⟩
  | evDataAckW st d => exact ⟨some .dataAckW, st, d, rfl⟩
  | evDataNackW st d => exact ⟨some .dataNackW, st, d, rfl⟩
  | evAddrAckR st d => exact ⟨some .addrAckR, st, d, rfl⟩
  | evAddrNackR st d => exact ⟨some .addrNackR, st, d, rfl⟩
  | evDataAckR st d => exact ⟨some .dataAckR, st, d, rfl⟩
  | evDataNackR st d => exact ⟨some .dataNackR, st, d, rfl⟩
  | evOther st d => exact ⟨none, st, d, rfl⟩
  | _ => exact absurd h Bool.false_ne_true

@[simp] theorem encode_eventInstr (n : Option StatusName) (st d : Byte) :
    encode (eventInstr n st d) = .record (eventRecord st d) := by
  cases n with
  | none => rfl
  | some n => cases n <;> rfl

/-- An event instruction is well formed exactly if its status byte decodes to its row (R96, R101). -/
theorem wf_eventInstr_iff (n : Option StatusName) (st d : Byte) :
    (eventInstr n st d).wf = true ↔ decodeStatus st = n := by
  cases n with
  | none => exact (decodeStatus_eq_none_iff st).symm
  | some n =>
    rw [decodeStatus_eq_some_iff]
    cases n <;> rfl

theorem Instr.isInput_of_isEvent {i : Instr} (h : i.isEvent = true) : i.isInput = true := by
  unfold Instr.isInput
  split
  case h_4 => exact h
  all_goals rfl

/-! ### The fields of the three records -/

@[simp] theorem kind_eventRecord (st d : Byte) : Record.kind (eventRecord st d) = 0b00#2 := by
  apply BitVec.eq_of_toNat_eq
  have hst := st.isLt
  have hd := d.isLt
  rw [Record.kind, extract_toNat, eventRecord_toNat, BitVec.toNat_ofNat]
  omega

@[simp] theorem eventReserved_eventRecord (st d : Byte) : Record.eventReserved (eventRecord st d) = 0 := by
  apply BitVec.eq_of_toNat_eq
  have hst := st.isLt
  have hd := d.isLt
  rw [Record.eventReserved, extract_toNat, eventRecord_toNat]
  simp
  omega

@[simp] theorem eventData_eventRecord (st d : Byte) : Record.eventData (eventRecord st d) = d := by
  apply BitVec.eq_of_toNat_eq
  have hst := st.isLt
  have hd := d.isLt
  rw [Record.eventData, extract_toNat, eventRecord_toNat]
  omega

@[simp] theorem eventStatus_eventRecord (st d : Byte) : Record.eventStatus (eventRecord st d) = st := by
  apply BitVec.eq_of_toNat_eq
  have hst := st.isLt
  rw [Record.eventStatus, extract_toNat, eventRecord_toNat]
  omega

@[simp] theorem kind_submitRecord (b : BitVec 1) (r : ReqId) : Record.kind (submitRecord b r) = 0b01#2 := by
  apply BitVec.eq_of_toNat_eq
  have hb := b.isLt
  rw [Record.kind, extract_toNat, submitRecord_toNat, BitVec.toNat_ofNat]
  omega

@[simp] theorem submitReserved_submitRecord (b : BitVec 1) (r : ReqId) : Record.submitReserved (submitRecord b r) = 0 := by
  apply BitVec.eq_of_toNat_eq
  have hb := b.isLt
  rw [Record.submitReserved, extract_toNat, submitRecord_toNat]
  simp
  omega

@[simp] theorem submitDir_submitRecord (b : BitVec 1) (r : ReqId) : Record.submitDir (submitRecord b r) = b := by
  apply BitVec.eq_of_toNat_eq
  have hb := b.isLt
  rw [Record.submitDir, extract_toNat, submitRecord_toNat]
  omega

theorem submitId_submitRecord (b : BitVec 1) (r : ReqId) : (Record.submitId (submitRecord b r)).toNat = r % 2 ^ 24 := by
  have hb := b.isLt
  rw [Record.submitId, extract_toNat, submitRecord_toNat]
  omega

@[simp] theorem kind_initRecord (target : Nat) : Record.kind (initRecord target) = 0b10#2 := by
  apply BitVec.eq_of_toNat_eq
  rw [Record.kind, extract_toNat, initRecord_toNat, BitVec.toNat_ofNat]
  omega

theorem initTarget_initRecord (target : Nat) : (Record.initTarget (initRecord target)).toNat = target % 2 ^ 30 := by
  rw [Record.initTarget, extract_toNat, initRecord_toNat]
  omega

/-! ### Reading a record back -/

theorem decodeRecord_eventRecord (st d : Byte) : decodeRecord (eventRecord st d) = .ok (decodeEvent st d) := by
  simp [decodeRecord]

theorem decodeRecord_submitRecord (b : BitVec 1) {r : ReqId} (h : r < 2 ^ 24) :
    decodeRecord (submitRecord b r) = .ok (submitInstr r (if b = 1#1 then .read else .write)) := by
  have hid : (Record.submitId (submitRecord b r)).toNat = r := by rw [submitId_submitRecord, Nat.mod_eq_of_lt h]
  simp [decodeRecord, hid]

theorem decodeRecord_initRecord {target : Nat} (h : target < 2 ^ 30) :
    decodeRecord (initRecord target) = .ok (.init target) := by
  have htarget : (Record.initTarget (initRecord target)).toNat = target := by
    rw [initTarget_initRecord, Nat.mod_eq_of_lt h]
  simp [decodeRecord, htarget]

/-- Settles O3: an INIT and a SUBMIT are read field by field, and an event's status byte decodes to its own row. -/
theorem recordsRoundTrip : Obligations.RecordsRoundTrip := by
  intro i hin hwf
  by_cases hev : i.isEvent = true
  · obtain ⟨n, st, d, rfl⟩ := exists_eventInstr hev
    have hstatus : decodeStatus st = n := (wf_eventInstr_iff n st d).mp hwf
    rw [encode_eventInstr, ← decodeEvent_of_name hstatus]
    exact decodeRecord_eventRecord st d
  · cases i with
    | init target => exact decodeRecord_initRecord (of_decide_eq_true hwf)
    | submitW r => exact decodeRecord_submitRecord 0 (of_decide_eq_true hwf)
    | submitR r => exact decodeRecord_submitRecord 1 (of_decide_eq_true hwf)
    | _ => exact absurd hin hev

/-! ### Writing an accepted record back -/

/-- A word is its kind, fourteen bits, the data byte and the status byte. -/
theorem eventRecord_of_fields {w : Record} (hkind : Record.kind w = 0b00#2) (hres : Record.eventReserved w = 0#14) :
    eventRecord (Record.eventStatus w) (Record.eventData w) = w := by
  apply BitVec.eq_of_toNat_eq
  have hw := w.isLt
  have hk := congrArg BitVec.toNat hkind
  have hr := congrArg BitVec.toNat hres
  rw [Record.kind, extract_toNat, BitVec.toNat_ofNat] at hk
  rw [Record.eventReserved, extract_toNat, BitVec.toNat_ofNat] at hr
  rw [eventRecord_toNat, Record.eventStatus, Record.eventData, extract_toNat, extract_toNat]
  omega

/-- A word is its kind, the direction bit, five bits and the identifier. -/
theorem submitRecord_of_fields {w : Record} (hkind : Record.kind w = 0b01#2) (hres : Record.submitReserved w = 0#5) :
    submitRecord (Record.submitDir w) (Record.submitId w).toNat = w := by
  apply BitVec.eq_of_toNat_eq
  have hw := w.isLt
  have hk := congrArg BitVec.toNat hkind
  have hr := congrArg BitVec.toNat hres
  rw [Record.kind, extract_toNat, BitVec.toNat_ofNat] at hk
  rw [Record.submitReserved, extract_toNat, BitVec.toNat_ofNat] at hr
  rw [submitRecord_toNat, Record.submitDir, Record.submitId, extract_toNat, extract_toNat]
  omega

theorem initRecord_of_fields {w : Record} (hkind : Record.kind w = 0b10#2) :
    initRecord (Record.initTarget w).toNat = w := by
  apply BitVec.eq_of_toNat_eq
  have hw := w.isLt
  have hk := congrArg BitVec.toNat hkind
  rw [Record.kind, extract_toNat, BitVec.toNat_ofNat] at hk
  rw [initRecord_toNat, Record.initTarget, extract_toNat]
  omega

/-- The record decoder by the kind of its word (R109, R110). -/
theorem decodeRecord_cases (w : Record) :
    (Record.kind w = 0b00#2 ∧ Record.eventReserved w = 0#14 ∧
      decodeRecord w = .ok (decodeEvent (Record.eventStatus w) (Record.eventData w))) ∨
    (Record.kind w = 0b00#2 ∧ Record.eventReserved w ≠ 0#14 ∧ decodeRecord w = .error .reservedBits) ∨
    (Record.kind w = 0b01#2 ∧ Record.submitReserved w = 0#5 ∧
      decodeRecord w =
        .ok (submitInstr (Record.submitId w).toNat (if Record.submitDir w = 1#1 then .read else .write))) ∨
    (Record.kind w = 0b01#2 ∧ Record.submitReserved w ≠ 0#5 ∧ decodeRecord w = .error .reservedBits) ∨
    (Record.kind w = 0b10#2 ∧ decodeRecord w = .ok (.init (Record.initTarget w).toNat)) ∨
    (Record.kind w = 0b11#2 ∧ decodeRecord w = .error .reservedKind) := by
  have hkinds : ∀ k : BitVec 2, k = 0b00#2 ∨ k = 0b01#2 ∨ k = 0b10#2 ∨ k = 0b11#2 := by decide
  rcases hkinds (Record.kind w) with hk | hk | hk | hk
  · by_cases hr : Record.eventReserved w = 0#14 <;> simp [decodeRecord, hk, hr]
  · by_cases hr : Record.submitReserved w = 0#5 <;> simp [decodeRecord, hk, hr]
  · simp [decodeRecord, hk]
  · simp [decodeRecord, hk]

/-- The SUBMIT of an accepted record, whose direction bit is its direction. -/
theorem submitInstr_of_bit (b : BitVec 1) {r : ReqId} (h : r < 2 ^ 24) :
    (submitInstr r (if b = 1#1 then .read else .write)).isInput = true ∧
    (submitInstr r (if b = 1#1 then .read else .write)).wf = true ∧
    encode (submitInstr r (if b = 1#1 then .read else .write)) = .record (submitRecord b r) := by
  have hbit : ∀ b : BitVec 1, b = 1#1 ∨ b = 0#1 := by decide
  rcases hbit b with rfl | rfl
  · exact ⟨rfl, decide_eq_true h, rfl⟩
  · exact ⟨rfl, decide_eq_true h, rfl⟩

/-- Settles O4: the fields the decoder reads are the whole word, the reserved bits being zero. -/
theorem acceptedRecordsEncodeBack : Obligations.AcceptedRecordsEncodeBack := by
  intro w i h
  rcases decodeRecord_cases w with
    ⟨hk, hr, he⟩ | ⟨-, -, he⟩ | ⟨hk, hr, he⟩ | ⟨-, -, he⟩ | ⟨hk, he⟩ | ⟨-, he⟩ <;> rw [h] at he
  · obtain rfl := Except.ok.inj he
    obtain ⟨hwf, hev⟩ := eventInstr_wf (Record.eventStatus w) (Record.eventData w)
    refine ⟨Instr.isInput_of_isEvent hev, hwf, ?_⟩
    rw [decodeEvent, encode_eventInstr, eventRecord_of_fields hk hr]
  · exact absurd he (by simp)
  · obtain rfl := Except.ok.inj he
    have hwf := submitInstr_of_bit (Record.submitDir w) (Record.submitId w).isLt
    rwa [submitRecord_of_fields hk hr] at hwf
  · exact absurd he (by simp)
  · obtain rfl := Except.ok.inj he
    refine ⟨rfl, decide_eq_true (Record.initTarget w).isLt, ?_⟩
    rw [encode, initRecord_of_fields hk]
  · exact absurd he (by simp)

/-- Settles O5: the six cases of the decoder, of which two refuse the reserved bits and one the kind. -/
theorem recordRefusalsExact : Obligations.RecordRefusalsExact := by
  intro w
  change (_ ↔ Record.kind w = 3#2) ∧
    (_ ↔ (Record.kind w = 0#2 ∧ Record.eventReserved w ≠ 0#14) ∨
      (Record.kind w = 1#2 ∧ Record.submitReserved w ≠ 0#5))
  rcases decodeRecord_cases w with
    ⟨hk, hr, he⟩ | ⟨hk, hr, he⟩ | ⟨hk, hr, he⟩ | ⟨hk, hr, he⟩ | ⟨hk, he⟩ | ⟨hk, he⟩ <;> simp_all

/-! ### The other words -/

/-- Settles O1: each word evaluated. -/
theorem specWordsDecode : Obligations.SpecWordsDecode := by
  unfold Obligations.SpecWordsDecode
  decide

/-- The bytes of the model's CFG word (log entry 16). -/
theorem decodePacket_encode_cfg (divider : Byte) {p : Nat} (h : p < 256) :
    decodePacket (encode (.cfg divider p)) = .ok (.cfg divider p) := by
  have hdiv := divider.isLt
  have hlow : (BitVec.ofNat 8 p ++ divider : BitVec 16).extractLsb' 0 8 = divider := by
    apply BitVec.eq_of_toNat_eq
    rw [extract_toNat, cfgWord_toNat]
    omega
  have hhigh : ((BitVec.ofNat 8 p ++ divider : BitVec 16).extractLsb' 8 8).toNat = p := by
    rw [extract_toNat, cfgWord_toNat]
    omega
  simp only [encode, decodePacket, hlow, hhigh]

/-- Settles O6: the command words and their coincidences evaluated; LOAD's word is its byte. -/
theorem primitiveWordsDecode : Obligations.PrimitiveWordsDecode :=
  ⟨by decide, fun _ => rfl, fun divider _ hp => decodePacket_encode_cfg divider hp, rfl, rfl, rfl⟩

/-- Settles O7, command by command. -/
theorem controlWordFields : Obligations.ControlWordFields := by
  intro c
  cases c <;> decide

end Sys2Proof

/-! PROOFS. What one step can do, said once for every input, and the induction over a step that invariants use (R17). -/

namespace Sys2Proof.Machine

/-- What the response to an input can do: a mark, one of the host's directives, or an instruction's effect. -/
inductive Response (inp : Input) (s : State) : State → Prop where
  /-- A refused record or directive (R46). -/
  | refuse (x : RefuseReason) : Response inp s (s.refuse x)
  /-- NEW_DEVICE (R44). -/
  | newDevice {d : DevId} (addr : BusAddr) (hd : s.device d = none) :
      Response inp s { s with devs := Table.put s.devs d { addr := addr } }
  /-- NEW_REQUEST (R9, R44). -/
  | newRequest {r : ReqId} {dev : DevId} {remaining : Nat} (buf : List Byte) (cb : Bool) (hr : s.request r = none)
      (hd : (s.device dev).isSome = true) (hfit : remaining < 2 ^ s.remWidth) :
      Response inp s (s.setRequest r
        { dir := .write, device := dev, buf := Memory.ofBytes buf, cursor := 0, remaining := remaining, hasCb := cb,
          life := .fresh })
  /-- A host write into a buffer (R71). -/
  | hostWrite {r : ReqId} {k : Nat} {q : Request} (v : Byte) (hq : s.request r = some q) (hk : k < q.buf.len) :
      Response inp s (s.setRequest r { q with buf := q.buf.write k v })
  /-- The instruction of a packet (R101). -/
  | run {p : Packet} {i : Instr} {t : State} (hp : inp = .packet p) (hi : decodePacket p = .ok i) (he : Effect i s t) :
      Response inp s t

theorem respond_response {inp : Input} {s t : State} (h : respond inp s = .next t) : Response inp s t := by
  rcases respond_next h with ⟨dir, -, hd⟩ | ⟨p, i, hp, hi, he⟩ | ⟨p, x, -, rfl⟩
  · rcases direct_next hd with
      ⟨x, rfl⟩ | ⟨d, addr, hnew, rfl⟩ | ⟨r, dev, buf, n, cb, -, hr, hdev, hfit, rfl⟩ | ⟨r, k, v, q, hq, hk, rfl⟩
    · exact .refuse x
    · exact .newDevice addr hnew
    · exact .newRequest buf cb hr hdev hfit
    · exact .hostWrite v hq hk
  · exact .run hp hi (exec_effect he).2
  · exact .refuse x

/-- A step waits, or takes the next input off the list and responds to it. -/
theorem step_response {s t : State} (h : step s = .next t) :
    s.Running ∧ (t = s ∨ ∃ inp rest, s.inputs = inp :: rest ∧ Response inp { s with inputs := rest } t) := by
  obtain ⟨hrun, ⟨-, rfl⟩ | ⟨inp, rest, hin, h⟩⟩ := step_next h
  · exact ⟨hrun, .inl rfl⟩
  · exact ⟨hrun, .inr ⟨inp, rest, hin, respond_response h⟩⟩

/-- What every response keeps, and what does not look at the inputs still to come, every step keeps. -/
theorem step_keeps {P : State → Prop} (hinputs : ∀ s rest, P s → P { s with inputs := rest })
    (hresp : ∀ inp s t, s.Running → P s → Response inp s t → P t) {s t : State} (hs : P s) (h : step s = .next t) :
    P t := by
  obtain ⟨hrun, rfl | ⟨inp, rest, -, h⟩⟩ := step_response h
  · exact hs
  · exact hresp inp { s with inputs := rest } t hrun (hinputs s rest hs) h

/-! ### Devices, configuration, and the trace -/

theorem Effect.devs_eq {i : Instr} {s t : State} (h : Effect i s t) : t.devs = s.devs := by
  cases h with
  | proceed _ _ hu | finish _ _ hu | complete _ _ hu | abandon _ _ hu => simp [hu.devs]
  | _ => simp

theorem Effect.device_eq {i : Instr} {s t : State} (h : Effect i s t) (d : DevId) : t.device d = s.device d := by
  rw [State.device, h.devs_eq, State.device]

theorem Response.keeps_device {inp : Input} {s t : State} (h : Response inp s t) {d : DevId} {dev : Device}
    (hd : s.device d = some dev) : t.device d = some dev := by
  cases h with
  | @newDevice d' addr hnew =>
    have hne : d ≠ d' := fun e => by rw [e, hnew] at hd; exact absurd hd (by simp)
    exact (Table.get_put_other _ hne _).trans hd
  | refuse | newRequest | hostWrite => exact hd
  | run _ _ he => rw [he.device_eq, hd]

/-- Settles O53: only NEW_DEVICE writes a device's record, and that of a new identifier. -/
theorem devicesAreImmutable : Obligations.DevicesAreImmutable := by
  intro s t d dev h hd
  exact step_keeps (P := fun u => u.device d = some dev) (fun _ _ hu => hu) (fun _ _ _ _ hu hr => hr.keeps_device hu) hd h

/-- The configuration stays, or the first one is made, and it fits its registers (R131, R134). -/
def ConfigKeptOrMade (s t : State) : Prop :=
  t.config = s.config ∨
    s.config = none ∧ ∃ divider, divider ≤ Config.divMax ∧
      t.config = some { divider := divider, prescaler := Config.prescaler }

theorem Effect.config_cases {i : Instr} {s t : State} (h : Effect i s t) : ConfigKeptOrMade s t := by
  cases h with
  | init _ o hc ho =>
    cases o with
    | none => exact .inl rfl
    | some divider => exact .inr ⟨hc, divider, ho divider rfl, rfl⟩
  | submit => exact .inl (State.dispatch_config _)
  | finish _ _ hu => exact .inl (by simp [hu.config])
  | complete _ _ hu => exact .inl (by simp [hu.config])
  | proceed _ _ hu => exact .inl hu.config
  | abandon _ _ hu => exact .inl hu.config
  | raise | writeConfig | command | load => exact .inl rfl

/-- No directive and no refusal writes the configuration. -/
theorem Response.config_cases {inp : Input} {s t : State} (h : Response inp s t) : ConfigKeptOrMade s t := by
  cases h with
  | refuse | newDevice | newRequest | hostWrite => exact .inl rfl
  | run _ _ he => exact he.config_cases

/-- Settles O22: only an INIT with no configuration before it writes one. -/
theorem configurationIsFinal : Obligations.ConfigurationIsFinal := by
  intro s t c h hc
  refine step_keeps (P := fun u => u.config = some c) (fun _ _ hu => hu) (fun _ u v _ hu hr => ?_) hc h
  rcases hr.config_cases with hv | ⟨hnone, -⟩
  · rw [hv, hu]
  · rw [hu] at hnone
    exact absurd hnone (by simp)

theorem State.endRequest_drainOrIdle_trace (s : State) (r : ReqId) (q : Request) (o : Tag) (m : StopMode) :
    ((s.endRequest r q o).drainOrIdle m).trace =
      s.trace ++ [Action.release r o, .cmd (if s.queue = [] then m.stop else m.chain)] := by
  obtain ⟨-, -, -, -, htrace⟩ := (s.endRequest r q o).drainOrIdle_shape m rfl
  rw [htrace, State.endRequest_trace, State.endRequest_queue, List.append_assoc]
  rfl

/-- Every effect appends to the trace. -/
theorem Effect.trace_prefix {i : Instr} {s t : State} (h : Effect i s t) : s.trace <+: t.trace := by
  cases h with
  | raise => exact List.prefix_rfl
  | init _ o =>
    cases o with
    | none => exact List.prefix_rfl
    | some divider => exact List.prefix_append ..
  | writeConfig | command | load => exact List.prefix_append ..
  | @submit r q dir =>
    obtain ⟨hactive, hidle⟩ := State.submit_shape s r q dir
    cases hb : s.busState with
    | active => rw [hactive hb]; exact List.prefix_rfl
    | idle =>
      obtain ⟨-, -, -, -, htrace⟩ := hidle hb
      rw [htrace]
      exact List.prefix_append ..
  | proceed _ _ hu _ _ ht => rw [State.command_trace, ht, List.append_assoc]; exact List.prefix_append ..
  | finish _ _ hu | complete _ _ hu =>
    obtain ⟨acts, ht, -⟩ := hu.trace
    rw [State.endRequest_drainOrIdle_trace]
    simp [ht]
  | abandon _ _ hu =>
    obtain ⟨acts, ht, -⟩ := hu.trace
    simp [ht]

/-- Settles O57: the host's directives and the refusals emit nothing, and every effect appends. -/
theorem traceOnlyGrows : Obligations.TraceOnlyGrows := by
  intro s t h
  refine step_keeps (P := fun u => s.trace <+: u.trace) (fun _ _ hu => hu) (fun _ u v _ hu hr => ?_) List.prefix_rfl h
  cases hr with
  | refuse | newDevice | newRequest | hostWrite => exact hu
  | run _ _ he => exact hu.trans he.trace_prefix

end Sys2Proof.Machine

/-! PROOFS. How a request's record evolves: its device, its buffer's length and form, and the balance of its counts. -/

namespace Sys2Proof.Machine

/-- What every step keeps of a request's record (R25, R60). -/
structure Request.Evolves (q q' : Request) : Prop where
  device : q'.device = q.device
  len : q'.buf.len = q.buf.len
  counts : q'.cursor + q'.remaining = q.cursor + q.remaining
  cursor : q.cursor ≤ q'.cursor
  wf : q.buf.wf → q'.buf.wf

theorem Request.Evolves.refl (q : Request) : q.Evolves q := ⟨rfl, rfl, rfl, Nat.le_refl _, id⟩

theorem Request.Evolves.trans {q q' q'' : Request} (h : q.Evolves q') (h' : q'.Evolves q'') : q.Evolves q'' where
  device := h'.device.trans h.device
  len := h'.len.trans h.len
  counts := h'.counts.trans h.counts
  cursor := h.cursor.trans h'.cursor
  wf := h'.wf ∘ h.wf

theorem SameRequest.evolves {q q' : Request} (h : SameRequest q q') : q.Evolves q' :=
  ⟨h.device, h.len, h.counts, h.cursor, h.wf⟩

/-- Direction, callback and lifecycle are no part of what evolves. -/
theorem Request.Evolves.of_fields (q : Request) (dir : Direction) (cb : Bool) (l : Life) :
    q.Evolves { q with dir := dir, hasCb := cb, life := l } := ⟨rfl, rfl, rfl, Nat.le_refl _, id⟩

/-- The records of `t` are those of `s`, each evolved. -/
def State.Evolves (s t : State) : Prop := ∀ x, Option.Rel Request.Evolves (s.request x) (t.request x)

theorem State.Evolves.refl (s : State) : s.Evolves s := by
  intro x
  cases s.request x with
  | none => exact .none
  | some q => exact .some (.refl q)

theorem State.Evolves.trans {s t u : State} (h : s.Evolves t) (h' : t.Evolves u) : s.Evolves u := by
  intro x
  have hst := h x
  have htu := h' x
  generalize s.request x = a, t.request x = b, u.request x = c at hst htu ⊢
  cases hst with
  | none =>
    cases htu with
    | none => exact .none
  | some hq =>
    cases htu with
    | some hq' => exact .some (hq.trans hq')

theorem State.Evolves.of_reqs {s t : State} (h : t.reqs = s.reqs) : s.Evolves t := by
  have hreq : ∀ x, t.request x = s.request x := fun x => by rw [State.request, h, State.request]
  intro x
  rw [hreq]
  exact State.Evolves.refl s x

theorem State.Evolves.setRequest {s : State} {r : ReqId} {q q' : Request} (hq : s.request r = some q) (h : q.Evolves q') :
    s.Evolves (s.setRequest r q') := by
  intro x
  rw [State.request_setRequest]
  by_cases hx : x = r
  · rw [if_pos hx, hx, hq]
    exact .some h
  · rw [if_neg hx]
    exact State.Evolves.refl s x

theorem State.Evolves.startHead (s : State) (c : Command) : s.Evolves (s.startHead c) := by
  intro x
  rw [State.request_startHead]
  split
  · cases s.request x with
    | none => exact .none
    | some q => exact .some (.of_fields q _ _ _)
  · exact State.Evolves.refl s x

theorem State.Evolves.drainOrIdle (s : State) (m : StopMode) : s.Evolves (s.drainOrIdle m) := by
  intro x
  rw [State.request_drainOrIdle, ← State.request_startHead s m.chain]
  exact State.Evolves.startHead s m.chain x

theorem State.Evolves.dispatch (s : State) : s.Evolves s.dispatch := by
  cases hb : s.busState with
  | active => rw [State.dispatch_active hb]; exact .refl s
  | idle => rw [State.dispatch_idle hb]; exact State.Evolves.startHead { s with busState := .active } .start

theorem State.Evolves.endRequest {s : State} {r : ReqId} {q q' : Request} (hq : s.request r = some q)
    (h : q.Evolves q') (o : Tag) : s.Evolves (s.endRequest r q' o) :=
  State.Evolves.setRequest (q' := { q' with life := .released }) hq (h.trans (.of_fields q' _ _ _))

theorem State.Evolves.enqueue {s : State} {r : ReqId} {q : Request} (hq : s.request r = some q) (dir : Direction) :
    s.Evolves (s.enqueue r q dir) :=
  State.Evolves.setRequest (s := { s with queue := s.queue ++ [r] }) hq (.of_fields q dir q.hasCb .queued)

theorem Progress.request_self {s u : State} {r : ReqId} {q q' : Request} (h : Progress s r q u q') :
    u.request r = some q' := by
  rw [h.request, if_pos rfl]

theorem Progress.evolves {s u : State} {r : ReqId} {q q' : Request} (h : Progress s r q u q')
    (hq : s.request r = some q) : s.Evolves u := by
  intro x
  rw [h.request]
  by_cases hx : x = r
  · rw [if_pos hx, hx, hq]
    exact .some h.same.evolves
  · rw [if_neg hx]
    exact State.Evolves.refl s x

theorem Effect.evolves {i : Instr} {s t : State} (h : Effect i s t) : s.Evolves t := by
  cases h with
  | raise | init | writeConfig | command | load => exact .of_reqs (by simp)
  | submit _ _ hq => exact (State.Evolves.enqueue hq _).trans (.dispatch _)
  | proceed _ hserv hu => exact (hu.evolves hserv.2.2).trans (.of_reqs rfl)
  | finish _ hserv hu =>
    exact (hu.evolves hserv.2.2).trans ((State.Evolves.endRequest hu.request_self (.refl _) _).trans (.drainOrIdle _ _))
  | @complete r q q' u _ hserv hu =>
    have hcb : (u.callback r none).request r = some q' := hu.request_self
    have hcleared : q'.Evolves { q' with hasCb := false } := ⟨rfl, rfl, rfl, Nat.le_refl _, id⟩
    exact (hu.evolves hserv.2.2).trans ((State.Evolves.of_reqs rfl).trans
      ((State.Evolves.endRequest hcb hcleared .ok).trans (.drainOrIdle _ _)))
  | abandon _ hserv hu =>
    exact (hu.evolves hserv.2.2).trans (State.Evolves.endRequest hu.request_self (.refl _) .unexpected)

theorem State.Evolves.of_some {s t : State} (h : s.Evolves t) {x : ReqId} {q : Request} (hq : s.request x = some q) :
    ∃ q', t.request x = some q' ∧ q.Evolves q' := by
  have hx := h x
  rw [hq] at hx
  generalize t.request x = o at hx
  cases hx with
  | some hqq => exact ⟨_, rfl, hqq⟩

theorem State.Evolves.to_some {s t : State} (h : s.Evolves t) {x : ReqId} {q' : Request} (hq : t.request x = some q') :
    ∃ q, s.request x = some q ∧ q.Evolves q' := by
  have hx := h x
  rw [hq] at hx
  generalize s.request x = o at hx
  cases hx with
  | some hqq => exact ⟨_, rfl, hqq⟩

/-- A record that a NEW_REQUEST may make (R9, R44). -/
structure State.Admits (s : State) (q : Request) : Prop where
  device : (s.device q.device).isSome = true
  wf : q.buf.wf
  count : q.remaining < 2 ^ s.remWidth

/-- After a response every record has evolved, or it is the one new record. -/
theorem Response.evolves_or_new {inp : Input} {s t : State} (h : Response inp s t) :
    s.Evolves t ∨ ∃ r q, s.request r = none ∧ s.Admits q ∧ t = s.setRequest r q := by
  cases h with
  | refuse | newDevice => exact .inl (.of_reqs rfl)
  | newRequest buf cb hr hd hfit => exact .inr ⟨_, _, hr, ⟨hd, Memory.ofBytes_wf buf, hfit⟩, rfl⟩
  | hostWrite v hq hk => exact .inl (.setRequest hq ⟨rfl, rfl, rfl, Nat.le_refl _, fun hw => Memory.write_wf hw hk v⟩)
  | run _ _ he => exact .inl he.evolves

/-- No response loses a record. -/
theorem Response.keeps_record {inp : Input} {s t : State} (h : Response inp s t) {x : ReqId} {q : Request}
    (hq : s.request x = some q) : ∃ q', t.request x = some q' ∧ q.Evolves q' := by
  obtain hev | ⟨r, qr, hr, -, rfl⟩ := h.evolves_or_new
  · exact hev.of_some hq
  · have hne : x ≠ r := fun e => by rw [e, hr] at hq; exact absurd hq (by simp)
    exact ⟨q, by rw [State.request_setRequest, if_neg hne, hq], .refl q⟩

/-- Where the records after a response come from. -/
theorem Response.record_origin {inp : Input} {s t : State} (h : Response inp s t) {x : ReqId} {q' : Request}
    (hq : t.request x = some q') : (∃ q, s.request x = some q ∧ q.Evolves q') ∨ s.Admits q' := by
  obtain hev | ⟨r, qr, -, hadm, rfl⟩ := h.evolves_or_new
  · exact .inl (hev.to_some hq)
  · rw [State.request_setRequest] at hq
    split at hq
    · exact .inr (Option.some.inj hq ▸ hadm)
    · exact .inl ⟨q', hq, .refl q'⟩

/-- Settles O54: every response keeps the record, evolved. -/
theorem cursorAndCountBalance : Obligations.CursorAndCountBalance := by
  intro s t r q h hq
  refine step_keeps
    (P := fun u => ∃ q', u.request r = some q' ∧ q'.cursor + q'.remaining = q.cursor + q.remaining ∧ q.cursor ≤ q'.cursor)
    (fun _ _ hu => hu) (fun _ u v _ hu hr => ?_) ⟨q, hq, rfl, Nat.le_refl _⟩ h
  obtain ⟨q', hq', hsum, hcur⟩ := hu
  obtain ⟨q'', hq'', hev⟩ := hr.keeps_record hq'
  exact ⟨q'', hq'', hev.counts.trans hsum, hcur.trans hev.cursor⟩

/-! ### Canonical tables -/

theorem Effect.keeps_reqs_canonical {i : Instr} {s t : State} (h : Effect i s t) (hs : Table.Canonical s.reqs) :
    Table.Canonical t.reqs := by
  cases h with
  | raise | writeConfig | command | load => exact hs
  | init => rwa [State.finishInit_reqs]
  | submit => exact State.submit_canonical hs _ _ _
  | proceed _ _ hu => exact hu.canonical hs
  | finish _ _ hu => exact State.drainOrIdle_canonical (Table.put_canonical (hu.canonical hs) _ _) _
  | complete _ _ hu => exact State.drainOrIdle_canonical (Table.put_canonical (hu.canonical hs) _ _) _
  | abandon _ _ hu => exact Table.put_canonical (hu.canonical hs) _ _

theorem Response.keeps_reqs_canonical {inp : Input} {s t : State} (h : Response inp s t) (hs : Table.Canonical s.reqs) :
    Table.Canonical t.reqs := by
  cases h with
  | refuse | newDevice => exact hs
  | newRequest | hostWrite => exact Table.put_canonical hs _ _
  | run _ _ he => exact he.keeps_reqs_canonical hs

theorem Response.keeps_devs_canonical {inp : Input} {s t : State} (h : Response inp s t) (hs : Table.Canonical s.devs) :
    Table.Canonical t.devs := by
  cases h with
  | newDevice => exact Table.put_canonical hs _ _
  | refuse | newRequest | hostWrite => exact hs
  | run _ _ he => rwa [he.devs_eq]

/-- Settles O49: tables are written by `Table.put` alone, and a buffer evolves or is made of the host's bytes. -/
theorem stepKeepsCanonical : Obligations.StepKeepsCanonical := by
  intro s t hs h
  refine step_keeps (P := State.CanonicalInv)
    (fun _ _ ⟨hreqs, hdevs, hbufs⟩ => ⟨hreqs, hdevs, hbufs⟩) (fun _ u v _ hu hr => ?_) hs h
  refine ⟨hr.keeps_reqs_canonical hu.reqs_rise, hr.keeps_devs_canonical hu.devs_rise, fun x q' hq' => ?_⟩
  obtain ⟨q, hq, hev⟩ | hadm := hr.record_origin hq'
  · exact hev.wf (hu.buffers_wf x q hq)
  · exact hadm.wf

/-! ### Devices exist, the configuration fits, one mark -/

/-- A response from a state without marks sets one at most (R305). -/
theorem Response.one_mark {inp : Input} {s t : State} (h : Response inp s t) (hrun : s.Running) :
    t.fault = none ∨ t.refused = none := by
  cases h with
  | refuse | newDevice | newRequest | hostWrite => exact .inl hrun.1
  | run _ _ he =>
    obtain ⟨hrefused, -⟩ := he.keeps
    exact .inr (hrefused.trans hrun.2)

theorem Response.keeps_device_isSome {inp : Input} {s t : State} (h : Response inp s t) {d : DevId}
    (hd : (s.device d).isSome = true) : (t.device d).isSome = true := by
  obtain ⟨dev, hdev⟩ := Option.isSome_iff_exists.mp hd
  rw [h.keeps_device hdev]
  rfl

/-- Settles O50: a record keeps its device and devices stay; a configuration is INIT's. -/
theorem stepKeepsRecords : Obligations.StepKeepsRecords := by
  intro s t hs h
  refine step_keeps (P := State.RecordInv)
    (fun _ _ ⟨hdev, hcfg, hmark⟩ => ⟨hdev, hcfg, hmark⟩) (fun _ u v hrun hu hr => ?_) hs h
  refine ⟨fun x q' hq' => hr.keeps_device_isSome ?_, fun c hc => ?_, hr.one_mark hrun⟩
  · obtain ⟨q, hq, hev⟩ | hadm := hr.record_origin hq'
    · rw [hev.device]
      exact hu.device_exists x q hq
    · exact hadm.device
  · obtain hsame | ⟨-, divider, hle, hnew⟩ := hr.config_cases
    · exact hu.config_fits c (hsame ▸ hc)
    · obtain rfl := Option.some.inj (hnew.symm.trans hc)
      exact ⟨hle, rfl⟩

/-! ### Counts -/

theorem Response.remWidth_eq {inp : Input} {s t : State} (h : Response inp s t) : t.remWidth = s.remWidth := by
  cases h with
  | refuse | newDevice | newRequest | hostWrite => rfl
  | run _ _ he =>
    obtain ⟨-, -, hwidth, -⟩ := he.keeps
    exact hwidth

/-- A count only falls. -/
theorem Request.Evolves.remaining_le {q q' : Request} (h : q.Evolves q') : q'.remaining ≤ q.remaining := by
  have hsum := h.counts
  have hcur := h.cursor
  omega

theorem Response.keeps_counts {inp : Input} {s t : State} (h : Response inp s t) (hs : s.CountsFit) : t.CountsFit := by
  refine ⟨by rw [h.remWidth_eq]; exact hs.width_pos, fun x q' hq' => ?_⟩
  rw [h.remWidth_eq]
  obtain ⟨q, hq, hev⟩ | hadm := h.record_origin hq'
  · exact Nat.lt_of_le_of_lt hev.remaining_le (hs.records x q hq)
  · exact hadm.count

/-- Settles O51: a count only falls, and a NEW_REQUEST brings one that fits. -/
theorem stepKeepsCounts : Obligations.StepKeepsCounts := by
  intro s t hs h
  refine step_keeps (P := fun u => u.CountsFit ∧ u.remWidth = s.remWidth)
    (fun _ _ ⟨⟨hpos, hrec⟩, hwidth⟩ => ⟨⟨hpos, hrec⟩, hwidth⟩) (fun _ u v _ hu hr => ?_) ⟨hs, rfl⟩ h
  exact ⟨hr.keeps_counts hu.1, hr.remWidth_eq.trans hu.2⟩

end Sys2Proof.Machine

/-! PROOFS. The lifecycle of the requests against the queue and the current request, operation by operation (R23, R28). -/

namespace Sys2Proof.Machine

/-- The lifecycle of a request; `none` where it has no record. -/
def State.lifeOf (s : State) (x : ReqId) : Option Life := (s.request x).map fun q => q.life

theorem State.lifeOf_of_request {s : State} {x : ReqId} {q : Request} (h : s.request x = some q) :
    s.lifeOf x = some q.life := by
  rw [State.lifeOf, h, Option.map_some]

theorem State.lifeOf_eq_some_iff {s : State} {x : ReqId} {l : Life} :
    s.lifeOf x = some l ↔ ∃ q, s.request x = some q ∧ q.life = l := Option.map_eq_some_iff

theorem State.lifeOf_congr {s t : State} (h : t.reqs = s.reqs) (x : ReqId) : t.lifeOf x = s.lifeOf x := by
  rw [State.lifeOf, State.request, h, State.lifeOf, State.request]

theorem State.lifeOf_setRequest (s : State) (r x : ReqId) (q : Request) :
    (s.setRequest r q).lifeOf x = if x = r then some q.life else s.lifeOf x := by
  rw [State.lifeOf, State.request_setRequest]
  split <;> rfl

theorem State.lifeOf_enqueue (s : State) (r x : ReqId) (q : Request) (dir : Direction) :
    (s.enqueue r q dir).lifeOf x = if x = r then some .queued else s.lifeOf x :=
  State.lifeOf_setRequest { s with queue := s.queue ++ [r] } r x { q with dir := dir, life := .queued }

theorem State.lifeOf_endRequest (s : State) (r x : ReqId) (q : Request) (o : Tag) :
    (s.endRequest r q o).lifeOf x = if x = r then some .released else s.lifeOf x :=
  State.lifeOf_setRequest { s with current := none } r x { q with life := .released }

theorem State.lifeOf_startHead (s : State) (c : Command) (x : ReqId) :
    (s.startHead c).lifeOf x = if s.queue.head? = some x then (s.lifeOf x).map fun _ => .current else s.lifeOf x := by
  rw [State.lifeOf, State.request_startHead, State.lifeOf]
  split
  · rw [Option.map_map, Option.map_map]
    rfl
  · rfl

theorem State.startHead_nil {s : State} (h : s.queue = []) (c : Command) : s.startHead c = s := by
  unfold State.startHead
  rw [h]

/-! ### The lifecycle invariant in terms of lifecycles alone -/

theorem State.lifeInv_iff (s : State) :
    s.LifeInv ↔ s.queue.Nodup ∧ (∀ x, x ∈ s.queue ↔ s.lifeOf x = some .queued) ∧
      ∀ x, s.current = some x ↔ s.lifeOf x = some .current := by
  simp only [State.lifeOf_eq_some_iff]
  constructor
  · intro h
    exact ⟨h.queue_nodup, fun x => ⟨h.queue_queued x, fun ⟨q, hq, hl⟩ => h.queued_in_queue x q hq hl⟩,
      fun x => ⟨h.current_current x, fun ⟨q, hq, hl⟩ => h.current_is_current x q hq hl⟩⟩
  · intro ⟨hnodup, hqueue, hcur⟩
    exact ⟨hnodup, fun x => (hqueue x).mp, fun x => (hcur x).mp, fun x q hq hl => (hqueue x).mpr ⟨q, hq, hl⟩,
      fun x q hq hl => (hcur x).mpr ⟨q, hq, hl⟩⟩

theorem State.LifeInv.mem_queue_iff {s : State} (h : s.LifeInv) (x : ReqId) : x ∈ s.queue ↔ s.lifeOf x = some .queued :=
  (s.lifeInv_iff.mp h).2.1 x

theorem State.LifeInv.current_iff {s : State} (h : s.LifeInv) (x : ReqId) :
    s.current = some x ↔ s.lifeOf x = some .current :=
  (s.lifeInv_iff.mp h).2.2 x

theorem State.LifeInv.congr {s t : State} (h : s.LifeInv) (hqueue : t.queue = s.queue) (hcur : t.current = s.current)
    (hlife : ∀ x, t.lifeOf x = s.lifeOf x) : t.LifeInv := by
  rw [State.lifeInv_iff] at h ⊢
  simp only [hqueue, hcur, hlife]
  exact h

theorem State.LifeInv.head_queued {s : State} (h : s.LifeInv) {x : ReqId} (hx : s.queue.head? = some x) :
    s.lifeOf x = some .queued :=
  (h.mem_queue_iff x).mp (List.mem_of_mem_head? hx)

theorem State.LifeInv.enqueue {s : State} (h : s.LifeInv) {r : ReqId} (hfresh : s.lifeOf r = some .fresh) (q : Request)
    (dir : Direction) : (s.enqueue r q dir).LifeInv := by
  have hnotin : r ∉ s.queue := fun hmem => by
    rw [h.mem_queue_iff, hfresh] at hmem
    exact absurd hmem (by decide)
  rw [State.lifeInv_iff]
  refine ⟨?_, fun x => ?_, fun x => ?_⟩
  · exact List.nodup_append.mpr ⟨h.queue_nodup, List.nodup_singleton r, fun a ha b hb e => by simp_all⟩
  · rw [State.enqueue_queue, List.mem_append, h.mem_queue_iff, State.lifeOf_enqueue]
    by_cases hx : x = r <;> simp [hx]
  · rw [State.enqueue_current, h.current_iff, State.lifeOf_enqueue]
    by_cases hx : x = r <;> simp [hx, hfresh]

theorem State.LifeInv.startHead {s : State} (h : s.LifeInv) (hcur : s.current = none) (c : Command) :
    (s.startHead c).LifeInv := by
  cases hq : s.queue with
  | nil => rwa [State.startHead_nil hq]
  | cons n rest =>
    have hnodup := h.queue_nodup
    rw [hq, List.nodup_cons] at hnodup
    have hn : s.lifeOf n = some .queued := h.head_queued (by rw [hq, List.head?_cons])
    have hqueue : (s.startHead c).queue = rest := by rw [State.startHead_cons hq]; simp
    have hcurrent : (s.startHead c).current = some n := by rw [State.startHead_cons hq]; simp
    rw [State.lifeInv_iff]
    simp only [hqueue, hcurrent, State.lifeOf_startHead, hq, List.head?_cons]
    refine ⟨hnodup.2, fun x => ?_, fun x => ?_⟩
    · by_cases hx : n = x
      · subst hx
        simp [hn, hnodup.1]
      · have hmem := h.mem_queue_iff x
        simpa [hq, hx, Ne.symm hx] using hmem
    · by_cases hx : n = x
      · subst hx
        simp [hn]
      · have hcx := h.current_iff x
        simpa [hcur, hx] using hcx

theorem State.LifeInv.drainOrIdle {s : State} (h : s.LifeInv) (hcur : s.current = none) (m : StopMode) :
    (s.drainOrIdle m).LifeInv := by
  cases hq : s.queue with
  | nil =>
    rw [State.drainOrIdle_nil hq]
    exact h.congr rfl rfl fun _ => rfl
  | cons n rest =>
    rw [State.drainOrIdle_cons hq, ← State.startHead_cons hq]
    exact h.startHead hcur _

theorem State.LifeInv.endRequest {s : State} (h : s.LifeInv) {r : ReqId} (hcur : s.current = some r) (q : Request)
    (o : Tag) : (s.endRequest r q o).LifeInv := by
  have hr : s.lifeOf r = some .current := (h.current_iff r).mp hcur
  rw [State.lifeInv_iff]
  simp only [State.endRequest_queue, State.endRequest_current, State.lifeOf_endRequest]
  refine ⟨h.queue_nodup, fun x => ?_, fun x => ?_⟩
  · rw [h.mem_queue_iff]
    by_cases hx : x = r <;> simp [hx, hr]
  · have hcx := h.current_iff x
    by_cases hx : x = r
    · simp [hx]
    · simp only [hx, if_false]
      rw [← hcx, hcur]
      simp [Ne.symm hx]

theorem State.LifeInv.dispatch {s : State} (h : s.LifeInv) (hcur : s.busState = .idle → s.current = none) :
    s.dispatch.LifeInv := by
  cases hb : s.busState with
  | active => rwa [State.dispatch_active hb]
  | idle =>
    rw [State.dispatch_idle hb]
    exact State.LifeInv.startHead (s := { s with busState := .active }) (h.congr rfl rfl fun _ => rfl) (hcur hb) .start

theorem State.BusInv.current_of_idle {s : State} (h : s.BusInv) (hb : s.busState = .idle) : s.current = none := by
  rw [State.BusInv, hb] at h
  simpa using h

theorem Progress.lifeOf {s u : State} {r : ReqId} {q q' : Request} (h : Progress s r q u q') (hq : s.request r = some q)
    (x : ReqId) : u.lifeOf x = s.lifeOf x := by
  rw [State.lifeOf, h.request]
  by_cases hx : x = r
  · rw [if_pos hx, hx, State.lifeOf_of_request hq, Option.map_some, h.same.life]
  · rw [if_neg hx]
    rfl

theorem Progress.lifeInv {s u : State} {r : ReqId} {q q' : Request} (h : Progress s r q u q') (hq : s.request r = some q)
    (hs : s.LifeInv) : u.LifeInv :=
  hs.congr h.queue h.current (h.lifeOf hq)

theorem Effect.keeps_life {i : Instr} {s t : State} (h : Effect i s t) (hbus : s.BusInv) (hs : s.LifeInv) : t.LifeInv := by
  cases h with
  | raise | writeConfig | command | load => exact hs.congr rfl rfl fun _ => rfl
  | init => exact hs.congr (by simp) (by simp) (State.lifeOf_congr (by simp))
  | submit _ _ hq hl =>
    have hfresh := (State.lifeOf_of_request hq).trans (congrArg some hl)
    exact (hs.enqueue hfresh _ _).dispatch hbus.current_of_idle
  | proceed _ hserv hu => exact (hu.lifeInv hserv.2.2 hs).congr rfl rfl fun _ => rfl
  | finish _ hserv hu =>
    have hcur := hu.current.trans hserv.2.1
    exact ((hu.lifeInv hserv.2.2 hs).endRequest hcur _ _).drainOrIdle rfl _
  | @complete r q q' u _ hserv hu =>
    have hcur : (u.callback r none).current = some r := hu.current.trans hserv.2.1
    have hlife : (u.callback r none).LifeInv := (hu.lifeInv hserv.2.2 hs).congr rfl rfl fun _ => rfl
    exact (hlife.endRequest hcur _ _).drainOrIdle rfl _
  | abandon _ hserv hu =>
    have hcur := hu.current.trans hserv.2.1
    exact ((hu.lifeInv hserv.2.2 hs).endRequest hcur _ .unexpected).congr rfl rfl fun _ => rfl

theorem Response.keeps_life {inp : Input} {s t : State} (h : Response inp s t) (hbus : s.BusInv) (hs : s.LifeInv) :
    t.LifeInv := by
  cases h with
  | refuse | newDevice => exact hs.congr rfl rfl fun _ => rfl
  | @newRequest r dev n buf cb hr =>
    have hnone : s.lifeOf r = none := by rw [State.lifeOf, hr, Option.map_none]
    rw [State.lifeInv_iff]
    refine ⟨hs.queue_nodup, fun x => ?_, fun x => ?_⟩
    · rw [State.setRequest_queue, hs.mem_queue_iff, State.lifeOf_setRequest]
      by_cases hx : x = r <;> simp [hx, hnone]
    · rw [State.setRequest_current, hs.current_iff, State.lifeOf_setRequest]
      by_cases hx : x = r <;> simp [hx, hnone]
  | @hostWrite r k q v hq =>
    refine hs.congr rfl rfl fun x => ?_
    rw [State.lifeOf_setRequest]
    by_cases hx : x = r
    · rw [if_pos hx, hx, State.lifeOf_of_request hq]
    · rw [if_neg hx]
  | run _ _ he => exact he.keeps_life hbus hs

end Sys2Proof.Machine

/-! PROOFS. Active exactly while a request is current (R23), and an event owed exactly then (R31, R175). -/

namespace Sys2Proof.Machine

/-- Draining leaves an Active bus Active exactly where the queue has a next request (R233). -/
theorem State.drainOrIdle_bus {s : State} (hcur : s.current = none) (hb : s.busState = .active) (m : StopMode) :
    (s.drainOrIdle m).BusInv := by
  obtain ⟨-, hcurrent, hbus, -, -⟩ := s.drainOrIdle_shape m hcur
  rw [State.BusInv, hcurrent, hbus, hb]
  cases s.queue <;> simp

/-- Draining owes an event exactly where the queue has a next request (R233, R262). -/
theorem State.drainOrIdle_armed {s : State} (hcur : s.current = none) (m : StopMode) : (s.drainOrIdle m).ArmedInv := by
  obtain ⟨-, hcurrent, -, harmed, -⟩ := s.drainOrIdle_shape m hcur
  rw [State.ArmedInv, harmed, hcurrent]
  cases s.queue <;> simp

theorem State.endRequest_drainOrIdle_bus {s : State} (hb : s.busState = .active) (r : ReqId) (q : Request) (o : Tag)
    (m : StopMode) : ((s.endRequest r q o).drainOrIdle m).BusInv :=
  State.drainOrIdle_bus (s := s.endRequest r q o) rfl hb m

theorem State.endRequest_drainOrIdle_armed (s : State) (r : ReqId) (q : Request) (o : Tag) (m : StopMode) :
    ((s.endRequest r q o).drainOrIdle m).ArmedInv :=
  State.drainOrIdle_armed rfl m

theorem State.submit_bus (s : State) (h : s.BusInv) (r : ReqId) (q : Request) (dir : Direction) :
    (s.enqueue r q dir).dispatch.BusInv := by
  obtain ⟨hactive, hidle⟩ := s.submit_shape r q dir
  cases hb : s.busState with
  | active => rw [hactive hb]; exact h
  | idle =>
    obtain ⟨-, hcurrent, hbus, -, -⟩ := hidle hb
    rw [State.BusInv, hcurrent, hbus]
    cases s.queue <;> simp

theorem State.submit_armed (s : State) (h : s.ArmedInv) (r : ReqId) (q : Request) (dir : Direction) :
    (s.enqueue r q dir).dispatch.ArmedInv := by
  obtain ⟨hactive, hidle⟩ := s.submit_shape r q dir
  cases hb : s.busState with
  | active => rw [hactive hb]; exact h
  | idle =>
    obtain ⟨-, hcurrent, -, harmed, -⟩ := hidle hb
    rw [State.ArmedInv, hcurrent, harmed]
    cases s.queue <;> simp

theorem State.BusInv.active_of_current {s : State} (h : s.BusInv) {r : ReqId} (hcur : s.current = some r) :
    s.busState = .active :=
  h.mpr (by rw [hcur]; rfl)

theorem Effect.keeps_bus {i : Instr} {s t : State} (h : Effect i s t) (hs : s.BusInv) : t.BusInv := by
  cases h with
  | raise | writeConfig | command | load => exact hs
  | init => rwa [State.BusInv, State.finishInit_busState, State.finishInit_current]
  | submit => exact s.submit_bus hs _ _ _
  | proceed _ _ hu => rwa [State.BusInv, State.command_busState, State.command_current, hu.busState, hu.current]
  | finish _ hserv hu | complete _ hserv hu =>
    have hactive := hu.busState.trans (hs.active_of_current hserv.2.1)
    apply State.endRequest_drainOrIdle_bus
    exact hactive
  | abandon => simp [State.BusInv]

/-- An event that does not fault owes another one exactly while a request is current after it. -/
theorem Effect.event_armed {i : Instr} {s t : State} (h : Effect i s t) (hi : i.isEvent = true) :
    (∃ f, t = s.raise f) ∨ t.ArmedInv := by
  cases h with
  | raise f => exact .inl ⟨f, rfl⟩
  | proceed _ hserv hu _ hc =>
    refine .inr ?_
    rw [State.ArmedInv, State.command_armed, State.command_current, hu.current, hserv.2.1, hc]
    simp
  | finish | complete => exact .inr (State.endRequest_drainOrIdle_armed _ _ _ _ _)
  | abandon => exact .inr (by simp [State.ArmedInv, arms])
  | init hj | load _ hj => rw [hj] at hi; exact absurd hi Bool.false_ne_true
  | writeConfig hj | command hj => rw [hj.1] at hi; exact absurd hi Bool.false_ne_true
  | @submit r q dir _ hj => rw [hj] at hi; cases dir <;> exact absurd hi Bool.false_ne_true

/-- An input of R90 keeps it that an event is owed exactly while a request is current. -/
theorem Effect.keeps_armed {i : Instr} {s t : State} (h : Effect i s t) (hi : i.isInput = true) (hs : s.ArmedInv) :
    t.ArmedInv := by
  by_cases hev : i.isEvent = true
  · obtain ⟨f, rfl⟩ | ht := h.event_armed hev
    · exact hs
    · exact ht
  · cases h with
    | raise => exact hs
    | init => rwa [State.ArmedInv, State.finishInit_armed, State.finishInit_current]
    | submit => exact s.submit_armed hs _ _ _
    | writeConfig hj | command hj => rw [hj.2] at hi; exact absurd hi Bool.false_ne_true
    | load _ hj => rw [hj] at hi; exact absurd hi Bool.false_ne_true
    | proceed hj | finish hj | complete hj | abandon hj => exact absurd hj hev

/-- A packet that is no register write spells an input of R90. -/
theorem isInput_of_decodePacket {p : Packet} {i : Instr} (hp : p.isRegisterWrite = false) (h : decodePacket p = .ok i) :
    i.isInput = true := by
  cases p with
  | record w => exact (acceptedRecordsEncodeBack w i h).1
  | init => obtain rfl := Except.ok.inj h; rfl
  | submit r dir => obtain rfl := Except.ok.inj h; cases dir <;> rfl
  | event st d => obtain rfl := Except.ok.inj h; exact Instr.isInput_of_isEvent (eventInstr_wf st d).2
  | controlWrite | dataWrite | cfgWrite => exact absurd hp (by simp [Packet.isRegisterWrite])

theorem Response.keeps_bus {inp : Input} {s t : State} (h : Response inp s t) (hs : s.BusInv) : t.BusInv := by
  cases h with
  | refuse | newDevice | newRequest | hostWrite => exact hs
  | run _ _ he => exact he.keeps_bus hs

theorem Response.keeps_armed {inp : Input} {s t : State} (h : Response inp s t) (hinp : inp.isRegisterWrite = false)
    (hs : s.ArmedInv) : t.ArmedInv := by
  cases h with
  | refuse | newDevice | newRequest | hostWrite => exact hs
  | run hp hi he =>
    rw [hp] at hinp
    exact he.keeps_armed (isInput_of_decodePacket hinp hi) hs

theorem Response.inputs_eq {inp : Input} {s t : State} (h : Response inp s t) : t.inputs = s.inputs := by
  cases h with
  | refuse | newDevice | newRequest | hostWrite => rfl
  | run _ _ he =>
    obtain ⟨-, -, -, hinputs⟩ := he.keeps
    exact hinputs

/-- Settles O48: the input a step takes is one of R90's, and the inputs after it are still to come. -/
theorem stepKeepsArmed : Obligations.StepKeepsArmed := by
  intro s t hbus harmed honly h
  obtain ⟨-, rfl | ⟨inp, rest, hin, hr⟩⟩ := step_response h
  · exact ⟨hbus, harmed, honly⟩
  · rw [State.OnlyInputs, hin, List.forall_mem_cons] at honly
    obtain ⟨hinp, hrest⟩ := honly
    refine ⟨hr.keeps_bus hbus, hr.keeps_armed hinp harmed, ?_⟩
    rw [State.OnlyInputs, hr.inputs_eq]
    exact hrest

end Sys2Proof.Machine

/-! PROOFS. One release and at most one Write callback per request (R236, R242), and with it the block's invariant. -/

namespace Sys2Proof.Machine

/-- What the trace must count for one request (R236, R242). -/
def State.Accounted (s : State) (x : ReqId) : Prop :=
  (releases x s.trace = if s.isReleased x then 1 else 0) ∧ writeCallbacks x s.trace ≤ if s.isCompleted x then 1 else 0

theorem State.traceInv_iff (s : State) : s.TraceInv ↔ ∀ x, s.Accounted x := by
  constructor
  · intro h x
    refine ⟨h.released_once x, ?_⟩
    by_cases hc : s.isCompleted x = true
    · rw [if_pos hc]
      exact h.callback_once x
    · have hne : writeCallbacks x s.trace ≠ 1 := fun e => hc (h.callback_completed x e)
      have hone := h.callback_once x
      rw [if_neg hc]
      omega
  · intro h
    refine ⟨fun x => (h x).1, fun x => (h x).2.trans (by split <;> simp), fun x hone => ?_⟩
    by_contra hc
    have hle := (h x).2
    rw [if_neg hc] at hle
    omega

theorem State.isReleased_iff (s : State) (x : ReqId) : s.isReleased x = true ↔ s.lifeOf x = some .released := by
  unfold State.isReleased State.lifeOf
  cases s.request x <;> simp

theorem State.isReleased_eq_false {s : State} {x : ReqId} {l : Life} (h : s.lifeOf x = some l) (hl : l ≠ .released) :
    s.isReleased x = false := by
  rw [Bool.eq_false_iff, Ne, s.isReleased_iff, h, Option.some.injEq]
  exact hl

theorem State.isCompleted_eq_false {s : State} {x : ReqId} (h : s.isReleased x = false) : s.isCompleted x = false := by
  unfold State.isReleased at h
  unfold State.isCompleted
  split at h <;> simp_all

/-- A step that counts nothing for a request, and neither ends it nor changes it after its end. -/
theorem State.Accounted.keep {s t : State} {x : ReqId} (h : s.Accounted x)
    (hreq : t.request x = s.request x ∨ s.isReleased x = false ∧ t.isReleased x = false)
    (hrel : releases x t.trace = releases x s.trace) (hcb : writeCallbacks x t.trace = writeCallbacks x s.trace) :
    t.Accounted x := by
  unfold State.Accounted at h ⊢
  rw [hrel, hcb]
  obtain hreq | ⟨hs, ht⟩ := hreq
  · have hr : t.isReleased x = s.isReleased x := by unfold State.isReleased; rw [hreq]
    have hc : t.isCompleted x = s.isCompleted x := by unfold State.isCompleted; rw [hreq]
    rwa [hr, hc]
  · rw [ht, State.isCompleted_eq_false ht]
    rwa [hs, State.isCompleted_eq_false hs] at h

theorem State.Accounted.enqueue {s : State} {r : ReqId} {q : Request} (hfresh : s.lifeOf r = some .fresh) (dir : Direction)
    {x : ReqId} (h : s.Accounted x) : (s.enqueue r q dir).Accounted x := by
  refine h.keep ?_ rfl rfl
  by_cases hx : x = r
  · subst hx
    refine .inr ⟨State.isReleased_eq_false hfresh (by decide), ?_⟩
    exact State.isReleased_eq_false (l := .queued) (by rw [State.lifeOf_enqueue, if_pos rfl]) (by decide)
  · exact .inl (by rw [State.request_enqueue, if_neg hx])

theorem State.startHead_trace_counts (s : State) (c : Command) (x : ReqId) :
    releases x (s.startHead c).trace = releases x s.trace ∧
    writeCallbacks x (s.startHead c).trace = writeCallbacks x s.trace := by
  cases hq : s.queue with
  | nil => rw [State.startHead_nil hq]; exact ⟨rfl, rfl⟩
  | cons n rest => rw [State.startHead_cons hq]; simp

theorem State.Accounted.startHead {s : State} (hlife : s.LifeInv) (c : Command) {x : ReqId} (h : s.Accounted x) :
    (s.startHead c).Accounted x := by
  obtain ⟨hrel, hcb⟩ := s.startHead_trace_counts c x
  refine h.keep ?_ hrel hcb
  by_cases hx : s.queue.head? = some x
  · have hqueued := hlife.head_queued hx
    refine .inr ⟨State.isReleased_eq_false hqueued (by decide), ?_⟩
    refine State.isReleased_eq_false (l := .current) ?_ (by decide)
    rw [State.lifeOf_startHead, if_pos hx, hqueued, Option.map_some]
  · exact .inl (by rw [State.request_startHead, if_neg hx])

theorem State.Accounted.drainOrIdle {s : State} (hlife : s.LifeInv) (m : StopMode) {x : ReqId} (h : s.Accounted x) :
    (s.drainOrIdle m).Accounted x := by
  cases hq : s.queue with
  | nil =>
    rw [State.drainOrIdle_nil hq]
    exact h.keep (.inl rfl) (by simp) (by simp)
  | cons n rest =>
    rw [State.drainOrIdle_cons hq, ← State.startHead_cons hq]
    exact h.startHead hlife _

theorem State.Accounted.dispatch {s : State} (hlife : s.LifeInv) {x : ReqId} (h : s.Accounted x) :
    s.dispatch.Accounted x := by
  cases hb : s.busState with
  | active => rwa [State.dispatch_active hb]
  | idle =>
    rw [State.dispatch_idle hb]
    exact State.Accounted.startHead (s := { s with busState := .active }) (hlife.congr rfl rfl fun _ => rfl) .start h

/-- The record that ends the current request: it was not released before, so this release is its one. -/
theorem State.Accounted.endRequest {s : State} {r : ReqId} (hcur : s.lifeOf r = some .current) (q : Request) (o : Tag)
    {x : ReqId} (h : s.Accounted x) : (s.endRequest r q o).Accounted x := by
  by_cases hx : x = r
  · subst hx
    have hlife : (s.endRequest x q o).lifeOf x = some .released := by rw [State.lifeOf_endRequest, if_pos rfl]
    have hrel := State.isReleased_eq_false hcur (by decide)
    unfold State.Accounted at h ⊢
    rw [hrel, State.isCompleted_eq_false hrel] at h
    obtain ⟨hzero, hnone⟩ := h
    rw [(State.isReleased_iff _ _).mpr hlife, State.endRequest_trace]
    simp only [releases_append, writeCallbacks_append]
    simp [hzero, Nat.le_zero.mp hnone]
  · refine h.keep (.inl (State.request_endRequest_other s hx q o)) ?_ ?_ <;> simp [Ne.symm hx]

/-- The same with the Write callback before it: the callback is then cleared, which makes the request completed. -/
theorem State.Accounted.callback_endRequest {s : State} {r : ReqId} (hcur : s.lifeOf r = some .current) (q : Request)
    (o : Tag) {x : ReqId} (h : s.Accounted x) :
    ((s.callback r none).endRequest r { q with hasCb := false } o).Accounted x := by
  by_cases hx : x = r
  · subst hx
    have hreq : ((s.callback x none).endRequest x { q with hasCb := false } o).request x =
        some { q with hasCb := false, life := .released } := State.request_setRequest_same _ _ _
    have hrel := State.isReleased_eq_false hcur (by decide)
    unfold State.Accounted at h ⊢
    rw [hrel, State.isCompleted_eq_false hrel] at h
    obtain ⟨hzero, hnone⟩ := h
    rw [State.isReleased_of hreq, State.isCompleted_of hreq]
    simp [hzero, Nat.le_zero.mp hnone]
  · refine h.keep (.inl (State.request_endRequest_other _ hx _ o)) ?_ ?_ <;> simp [Ne.symm hx]

theorem Progress.accounted {s u : State} {r : ReqId} {q q' : Request} (hu : Progress s r q u q')
    (hq : s.request r = some q) (hcur : s.lifeOf r = some .current) {x : ReqId} (h : s.Accounted x) : u.Accounted x := by
  obtain ⟨acts, htrace, hacts⟩ := hu.trace
  obtain ⟨hrel, hcb⟩ := counts_of_progress (r := x) hacts
  refine h.keep ?_ (by rw [htrace, releases_append, hrel, Nat.add_zero])
    (by rw [htrace, writeCallbacks_append, hcb, Nat.add_zero])
  by_cases hx : x = r
  · subst hx
    exact .inr ⟨State.isReleased_eq_false hcur (by decide),
      State.isReleased_eq_false ((hu.lifeOf hq x).trans hcur) (by decide)⟩
  · exact .inl (by rw [hu.request, if_neg hx])

theorem Effect.keeps_accounted {i : Instr} {s t : State} (h : Effect i s t) (hlife : s.LifeInv) {x : ReqId}
    (hs : s.Accounted x) : t.Accounted x := by
  cases h with
  | raise => exact hs
  | init _ o =>
    cases o with
    | none => exact hs
    | some divider => exact hs.keep (.inl rfl) (by simp [State.finishInit]) (by simp [State.finishInit])
  | writeConfig | command | load => exact hs.keep (.inl rfl) (by simp) (by simp)
  | submit _ _ hq hl =>
    have hfresh := (State.lifeOf_of_request hq).trans (congrArg some hl)
    exact (hs.enqueue hfresh _).dispatch (hlife.enqueue hfresh _ _)
  | proceed _ hserv hu =>
    exact (hu.accounted hserv.2.2 ((hlife.current_iff _).mp hserv.2.1) hs).keep (.inl rfl) (by simp) (by simp)
  | finish _ hserv hu =>
    obtain ⟨-, hcur, hq⟩ := hserv
    have hcurrent := (hlife.current_iff _).mp hcur
    have hend := (hu.accounted hq hcurrent hs).endRequest ((hu.lifeOf hq _).trans hcurrent)
    exact (hend _ _).drainOrIdle ((hu.lifeInv hq hlife).endRequest (hu.current.trans hcur) _ _) _
  | @complete r q q' u _ hserv hu =>
    obtain ⟨-, hcur, hq⟩ := hserv
    have hcurrent := (hlife.current_iff _).mp hcur
    have hend := (hu.accounted hq hcurrent hs).callback_endRequest ((hu.lifeOf hq _).trans hcurrent) q' .ok
    have hlife' : (u.callback r none).LifeInv := (hu.lifeInv hq hlife).congr rfl rfl fun _ => rfl
    exact hend.drainOrIdle (hlife'.endRequest (hu.current.trans hcur) _ _) _
  | abandon _ hserv hu =>
    obtain ⟨-, hcur, hq⟩ := hserv
    have hcurrent := (hlife.current_iff _).mp hcur
    have hend := (hu.accounted hq hcurrent hs).endRequest ((hu.lifeOf hq _).trans hcurrent)
    exact (hend _ .unexpected).keep (.inl rfl) (by simp) (by simp)

theorem Response.keeps_accounted {inp : Input} {s t : State} (h : Response inp s t) (hlife : s.LifeInv) {x : ReqId}
    (hs : s.Accounted x) : t.Accounted x := by
  cases h with
  | refuse | newDevice => exact hs
  | @newRequest r dev n buf cb hr =>
    refine hs.keep ?_ rfl rfl
    by_cases hx : x = r
    · subst hx
      refine .inr ⟨by rw [State.isReleased, hr], ?_⟩
      exact State.isReleased_eq_false (l := .fresh) (by rw [State.lifeOf_setRequest, if_pos rfl]) (by decide)
    · exact .inl (by rw [State.request_setRequest, if_neg hx])
  | @hostWrite r k q v hq =>
    unfold State.Accounted at hs ⊢
    have hreq := s.request_setRequest r x { q with buf := q.buf.write k v }
    have hrel : (s.setRequest r { q with buf := q.buf.write k v }).isReleased x = s.isReleased x := by
      by_cases hx : x = r <;> simp [State.isReleased, hreq, hx, hq]
    have hcompl : (s.setRequest r { q with buf := q.buf.write k v }).isCompleted x = s.isCompleted x := by
      by_cases hx : x = r <;> simp [State.isCompleted, hreq, hx, hq]
    rwa [hrel, hcompl]
  | run _ _ he => exact he.keeps_accounted hlife hs

/-- Settles O47: each operation of a step keeps lifecycles, queue and counts together; the bus follows the current request. -/
theorem stepKeepsInv : Obligations.StepKeepsInv := by
  intro s t hs h
  refine step_keeps (P := State.Inv) (fun s rest ⟨hbus, hlife, htrace⟩ => ⟨hbus, ?_, ?_⟩) (fun _ u v _ hu hr => ?_) hs h
  · exact hlife.congr rfl rfl fun _ => rfl
  · exact (State.traceInv_iff _).mpr (s.traceInv_iff.mp htrace)
  · obtain ⟨hbus, hlife, htrace⟩ := hu
    exact ⟨hr.keeps_bus hbus, hr.keeps_life hbus hlife,
      (State.traceInv_iff _).mpr fun x => hr.keeps_accounted hlife (u.traceInv_iff.mp htrace x)⟩

end Sys2Proof.Machine

/-! PROOFS. Marks, faults and rollback (R24, R33, R46, R150, R176, R303, R305). -/

namespace Sys2Proof.Machine

/-- Settles O13: the sticky checks precede the delivery and every arm. -/
theorem marksAreSticky : Obligations.MarksAreSticky := by
  refine ⟨fun s f hf => ⟨guarded_fault hf _, fun i => ?_⟩, fun s x hf hx => ⟨guarded_refused hf hx _, fun i => ?_⟩⟩
  · obtain ⟨body, hbody⟩ := exec_guarded i
    rw [hbody, guarded_fault hf]
  · obtain ⟨body, hbody⟩ := exec_guarded i
    rw [hbody, guarded_refused hf hx]

/-- An effect raises a fault, leaving the state before it with the mark, or leaves the mark as it was. -/
theorem Effect.raised_or_fault_eq {i : Instr} {s t : State} (h : Effect i s t) :
    (∃ f, t = s.raise f ∧ (f = .spuriousEvent → s.current = none) ∧ f ≠ .queueOverflow) ∨ t.fault = s.fault := by
  cases h with
  | raise f hf hq => exact .inl ⟨f, rfl, hf, hq⟩
  | proceed _ _ hu | finish _ _ hu | complete _ _ hu | abandon _ _ hu => exact .inr (by simp [hu.fault])
  | _ => exact .inr (by simp)

/-- Settles O14: the instruction ran from a state without marks, so a mark after it was raised by it. -/
theorem faultDiscardsStep : Obligations.FaultDiscardsStep := by
  intro i s t h hfault
  obtain ⟨hrun, he⟩ := exec_effect h
  obtain ⟨f, rfl, -⟩ | heq := he.raised_or_fault_eq
  · rfl
  · exact absurd (heq.trans hrun.1) hfault

/-! ### SUBMIT (R150, R151) -/

theorem exec_submitInstr (r : ReqId) (dir : Direction) (s : State) :
    exec (submitInstr r dir) s = submit Config.queueCap r dir s := by
  cases dir <;> rfl

theorem exists_submitInstr {i : Instr} {r : ReqId} (hi : i = .submitW r ∨ i = .submitR r) :
    ∃ dir, i = submitInstr r dir := by
  obtain rfl | rfl := hi
  · exact ⟨.write, rfl⟩
  · exact ⟨.read, rfl⟩

theorem submit_unconfigured {s : State} (hrun : s.Running) (hc : s.config = none) (cap : Option Nat) (r : ReqId)
    (dir : Direction) : submit cap r dir s = .next (s.raise .submitBeforeInit) := by
  rw [submit, guarded_running hrun, hc]

theorem submit_unknown {s : State} (hrun : s.Running) (hc : s.config ≠ none) {r : ReqId} (hr : s.request r = none)
    (cap : Option Nat) (dir : Direction) : submit cap r dir s = .next (s.raise .reqNotFresh) := by
  obtain ⟨c, hc⟩ := Option.ne_none_iff_exists'.mp hc
  rw [submit, guarded_running hrun, hc, hr]

theorem submit_notFresh {s : State} (hrun : s.Running) (hc : s.config ≠ none) {r : ReqId} {q : Request}
    (hr : s.request r = some q) (hl : q.life ≠ .fresh) (cap : Option Nat) (dir : Direction) :
    submit cap r dir s = .next (s.raise .reqNotFresh) := by
  obtain ⟨c, hc⟩ := Option.ne_none_iff_exists'.mp hc
  simp only [submit, guarded_running hrun, hc, hr, if_pos hl]

theorem submit_full {s : State} (hrun : s.Running) (hc : s.config ≠ none) {r : ReqId} {q : Request}
    (hr : s.request r = some q) (hl : q.life = .fresh) {cap : Option Nat} (hfull : queueFull cap s.queue = true)
    (dir : Direction) : submit cap r dir s = .next (s.raise .queueOverflow) := by
  obtain ⟨c, hc⟩ := Option.ne_none_iff_exists'.mp hc
  simp only [submit, guarded_running hrun, hc, hr, hl, ne_eq, not_true_eq_false, if_false, hfull, if_true]

/-- Settles O25: the three checks in their order. -/
theorem submitFaults : Obligations.SubmitFaults := by
  intro s r i hi hrun
  obtain ⟨dir, rfl⟩ := exists_submitInstr hi
  rw [exec_submitInstr]
  exact ⟨fun hc => submit_unconfigured hrun hc _ r dir, fun hc hr => submit_unknown hrun hc hr _ dir,
    fun q hc hr hl => submit_notFresh hrun hc hr hl _ dir⟩

/-- Settles O26: the fourth check of a SUBMIT is the queue's, and no other rule raises its fault. -/
theorem queueOverflowNeedsBound : Obligations.QueueOverflowNeedsBound := by
  refine ⟨fun s cap r q dir hrun hc hr hl => ⟨fun ⟨t, h, hfault⟩ => ?_, fun hcap => ?_⟩, fun i s t h => ?_⟩
  · obtain ⟨-, ⟨f, rfl, -, hfull⟩ | ⟨c, q', -, -, -, -, rfl⟩⟩ := submit_next h
    · exact of_decide_eq_true (hfull (Option.some.inj hfault))
    · rw [State.dispatch_fault, State.enqueue_fault, hrun.1] at hfault
      exact absurd hfault (by simp)
  · exact ⟨_, submit_full hrun hc hr hl (cap := some cap) (decide_eq_true hcap) dir, rfl⟩
  · obtain ⟨hrun, he⟩ := exec_effect h
    obtain ⟨f, rfl, -, hf⟩ | heq := he.raised_or_fault_eq
    · simpa using hf
    · rw [heq, hrun.1]
      simp

/-! ### Event entry (R170, R176) -/

/-- Every event instruction is the shared entry, and then its own arm. -/
theorem exec_event {i : Instr} (h : i.isEvent = true) :
    ∃ st d arm, ∀ s, exec i s = event st d arm s := by
  cases i with
  | evStart st d | evRepeatStart st d | evAddrAckW st d | evAddrNackW st d | evDataAckW st d | evDataNackW st d
  | evAddrAckR st d | evAddrNackR st d | evDataAckR st d | evDataNackR st d | evOther st d =>
    exact ⟨st, d, _, fun s => by
      dsimp only [exec, execEvStart, execEvRepeatStart, execEvAddrAckW, execEvAddrNackW, execEvDataAckW,
        execEvDataNackW, execEvAddrAckR, execEvAddrNackR, execEvDataAckR, execEvDataNackR, execEvOther]⟩
  | _ => exact absurd h Bool.false_ne_true

/-- Settles O27: the entry finds no current request before any arm runs. -/
theorem eventsNeedCurrent : Obligations.EventsNeedCurrent := by
  intro i s hi hrun hcur
  obtain ⟨st, d, arm, hexec⟩ := exec_event hi
  rw [hexec, event_idle hrun hcur]
  rfl

/-- Settles O28: SPURIOUS_EVENT is raised only with no current request, and armed means there is one. -/
theorem armedEventsAreExpected : Obligations.ArmedEventsAreExpected := by
  intro i s t hinv harmed _ h
  obtain ⟨hrun, he⟩ := exec_effect h
  have hcur : s.current ≠ none := Option.isSome_iff_ne_none.mp (hinv.mp harmed)
  obtain ⟨f, rfl, hf, -⟩ | heq := he.raised_or_fault_eq
  · intro hspurious
    exact hcur (hf (Option.some.inj hspurious))
  · rw [heq, hrun.1]
    simp

end Sys2Proof.Machine

/-! PROOFS. The eleven events: their last command, their frame, and the byte they may store (R45, R61, R77, R217). -/

namespace Sys2Proof.Machine

/-- What an event can do, the ends of a request with and without its Write callback read as one: `cb` are the actions of the
callback, and `q''` is the record that is then released. -/
inductive EventEffect (i : Instr) (s : State) : State → Prop where
  | raise (f : Fault) : EventEffect i s (s.raise f)
  | proceed {r : ReqId} {q q' : Request} {u : State} {c : Command} {acts : List Action} (hserv : s.Serving r q)
      (hu : Progress s r q u q') (hb : Stored i q q') (ht : u.trace = s.trace ++ acts) (hl : Latched i s u acts)
      (htx : c = .transmit ↔ ∃ b, acts.getLast? = some (.load b)) : EventEffect i s (u.command c)
  | ended {r : ReqId} {q q' q'' : Request} {u : State} (cb : List Action) (o : Tag) (m : StopMode) (hserv : s.Serving r q)
      (hu : Progress s r q u q') (hb : Stored i q q') (hl : Latched i s u [])
      (hcb : ∀ a ∈ cb, a.isCmd = false) (hq : ∃ b, q'' = { q' with hasCb := b }) :
      EventEffect i s ((({ u with trace := u.trace ++ cb } : State).endRequest r q'' o).drainOrIdle m)
  | abandon {r : ReqId} {q q' : Request} {u : State} (hserv : s.Serving r q) (hu : Progress s r q u q')
      (hb : Stored i q q') (hl : Latched i s u []) :
      EventEffect i s (({ u.endRequest r q' .unexpected with busState := .idle } : State).command .stop)

theorem Effect.eventEffect {i : Instr} {s t : State} (h : Effect i s t) (hi : i.isEvent = true) : EventEffect i s t := by
  cases h with
  | raise f => exact .raise f
  | proceed _ hserv hu hb _ ht hl htx => exact .proceed hserv hu hb ht hl htx
  | @finish r q q' u o m _ hserv hu hb hl =>
    have hnil : ({ u with trace := u.trace ++ [] } : State) = u := by rw [List.append_nil]
    rw [← hnil]
    exact .ended [] o m hserv hu hb hl (by simp) ⟨q'.hasCb, rfl⟩
  | @complete r q q' u _ hserv hu hb hl =>
    exact .ended [.callback r none] .ok .tx hserv hu hb hl (by simp [Action.isCmd]) ⟨false, rfl⟩
  | abandon _ hserv hu hb hl => exact .abandon hserv hu hb hl
  | init hj | load _ hj => rw [hj] at hi; exact absurd hi Bool.false_ne_true
  | writeConfig hj | command hj => rw [hj.1] at hi; exact absurd hi Bool.false_ne_true
  | @submit r q dir _ hj => rw [hj] at hi; cases dir <;> exact absurd hi Bool.false_ne_true

/-! ### One command, last (R77, R268) -/

/-- The actions of an arm before its last one are no commands. -/
theorem Progress.trace_noCmd {s u : State} {r : ReqId} {q q' : Request} (h : Progress s r q u q') :
    ∃ acts, u.trace = s.trace ++ acts ∧ ∀ a ∈ acts, a.isCmd = false := by
  obtain ⟨acts, ht, hacts⟩ := h.trace
  refine ⟨acts, ht, fun a ha => ?_⟩
  obtain ⟨b, rfl⟩ | ⟨v, rfl⟩ := hacts a ha <;> rfl

/-- After a list that ends in a RELEASE the latch holds what it held after no action. -/
theorem Latched.of_release {i : Instr} {s u t : State} (h : Latched i s u []) (hst : t.statusReg = u.statusReg)
    (hd : t.dataReg = u.dataReg) (hw : t.writeCollision = u.writeCollision) (pre : List Action) (r : ReqId) (o : Tag) :
    Latched i s t (pre ++ [.release r o]) := by
  obtain ⟨st, d, hev, hst', hd', hw'⟩ := h
  exact ⟨st, d, hev, hst.trans hst', by simp [hd, hd', lastLoaded], by simp [hw, hw', collisionAfter]⟩

theorem StopMode.ne_transmit (m : StopMode) : m.stop ≠ .transmit ∧ m.chain ≠ .transmit := by
  cases m <;> decide

/-- What the trace and the registers show of an event that raises nothing. -/
structure LastCommand (i : Instr) (s t : State) (pre : List Action) (c : Command) : Prop where
  trace : t.trace = s.trace ++ pre ++ [.cmd c]
  noCmd : ∀ a ∈ pre, a.isCmd = false
  transmit : c = .transmit ↔ ∃ b, pre.getLast? = some (.load b)
  control : t.controlReg = Config.ctrlWord c
  latched : Latched i s t pre

theorem State.drainOrIdle_command (s : State) (m : StopMode) (hcur : s.current = none) :
    ∃ c, c ≠ .transmit ∧ (s.drainOrIdle m).trace = s.trace ++ [.cmd c] ∧
      (s.drainOrIdle m).controlReg = Config.ctrlWord c := by
  obtain ⟨-, -, -, -, htrace⟩ := s.drainOrIdle_shape m hcur
  cases hq : s.queue with
  | nil =>
    rw [if_pos hq] at htrace
    exact ⟨m.stop, m.ne_transmit.1, htrace, by rw [State.drainOrIdle_nil hq]; simp⟩
  | cons n rest =>
    rw [if_neg (by simp [hq])] at htrace
    exact ⟨m.chain, m.ne_transmit.2, htrace, by rw [State.drainOrIdle_cons hq]; simp⟩

theorem EventEffect.lastCommand {i : Instr} {s t : State} (h : EventEffect i s t) :
    (∃ f, t = s.raise f) ∨ ∃ pre c, LastCommand i s t pre c := by
  cases h with
  | raise f => exact .inl ⟨f, rfl⟩
  | @proceed r q q' u c acts hserv hu hb ht hl htx =>
    obtain ⟨acts', ht', hno⟩ := hu.trace_noCmd
    obtain rfl : acts' = acts := List.append_cancel_left (ht'.symm.trans ht)
    exact .inr ⟨acts', c, by rw [State.command_trace, ht], hno, htx, rfl, hl⟩
  | @ended r q q' q'' u cb o m hserv hu hb hl hcb hq =>
    obtain ⟨acts, ht, hno⟩ := hu.trace_noCmd
    obtain ⟨c, hc, htrace, hctrl⟩ :=
      (({ u with trace := u.trace ++ cb } : State).endRequest r q'' o).drainOrIdle_command m rfl
    refine .inr ⟨acts ++ cb ++ [.release r o], c, ?_, fun a ha => ?_, ?_, hctrl, ?_⟩
    · rw [htrace, State.endRequest_trace]
      simp [ht]
    · rw [List.mem_append, List.mem_append, List.mem_singleton] at ha
      obtain (ha | ha) | rfl := ha
      · exact hno a ha
      · exact hcb a ha
      · rfl
    · simp [hc]
    · exact hl.of_release (by simp) (by simp) (by simp) _ r o
  | @abandon r q q' u hserv hu hb hl =>
    obtain ⟨acts, ht, hno⟩ := hu.trace_noCmd
    refine .inr ⟨acts ++ [.release r .unexpected], .stop, ?_, fun a ha => ?_, ?_, rfl, ?_⟩
    · simp [ht]
    · rw [List.mem_append, List.mem_singleton] at ha
      obtain ha | rfl := ha
      · exact hno a ha
      · rfl
    · simp
    · exact hl.of_release rfl rfl rfl acts r .unexpected

/-- A mark that is not set after the step was not raised by it. -/
theorem not_raised {s t : State} (h : t.fault = none) : ¬∃ f, t = s.raise f := by
  rintro ⟨f, rfl⟩
  exact absurd h (by simp)

/-- Settles O56: every arm that raises nothing ends in one command, which arms as the current request after it says. -/
theorem eventsEndInOneCommand : Obligations.EventsEndInOneCommand := by
  intro i s t hi h hfault
  obtain ⟨-, he⟩ := exec_effect h
  obtain ⟨pre, c, hlast⟩ := (he.eventEffect hi).lastCommand.resolve_left (not_raised hfault)
  exact ⟨pre, c, hlast.trace, hlast.noCmd, hlast.transmit, (he.event_armed hi).resolve_left (not_raised hfault)⟩

/-! ### The registers (R38, R261, R271) -/

/-- The step's actions end in a command, whose word the control register then holds; or they do not, and it is as before. -/
def ControlFollows (s t : State) : Prop :=
  (∃ pre c, t.trace = s.trace ++ pre ++ [.cmd c] ∧ t.controlReg = Config.ctrlWord c) ∨
    (∀ pre c, t.trace ≠ s.trace ++ pre ++ [.cmd c]) ∧ t.controlReg = s.controlReg

theorem ControlFollows.of_trace_eq {s t : State} (ht : t.trace = s.trace) (hc : t.controlReg = s.controlReg) :
    ControlFollows s t :=
  .inr ⟨fun pre c h => by simp [ht, List.append_assoc] at h, hc⟩

theorem ControlFollows.of_noCmd {s t : State} {a : Action} (ha : a.isCmd = false) (ht : t.trace = s.trace ++ [a])
    (hc : t.controlReg = s.controlReg) : ControlFollows s t := by
  refine .inr ⟨fun pre c h => ?_, hc⟩
  rw [ht, List.append_assoc, List.append_cancel_left_eq] at h
  have hlast : a = .cmd c := by simpa using congrArg List.getLast? h
  rw [hlast] at ha
  exact absurd ha (by simp [Action.isCmd])

theorem ControlFollows.of_cmd {s t : State} {c : Command} (ht : t.trace = s.trace ++ [.cmd c])
    (hc : t.controlReg = Config.ctrlWord c) : ControlFollows s t :=
  .inl ⟨[], c, by rw [ht, List.append_nil], hc⟩

theorem State.submit_control (s : State) (r : ReqId) (q : Request) (dir : Direction) :
    ControlFollows s (s.enqueue r q dir).dispatch := by
  obtain ⟨hactive, hidle⟩ := s.submit_shape r q dir
  cases hb : s.busState with
  | active =>
    rw [hactive hb]
    exact .of_trace_eq rfl rfl
  | idle =>
    obtain ⟨-, -, -, -, htrace⟩ := hidle hb
    refine .of_cmd htrace ?_
    rw [State.dispatch_idle (s := s.enqueue r q dir) hb]
    obtain ⟨n, rest, hq⟩ := List.exists_cons_of_ne_nil (l := s.queue ++ [r]) (by simp)
    rw [State.startHead_cons (s := { s.enqueue r q dir with busState := .active }) hq]
    rfl

theorem Effect.control_follows {i : Instr} {s t : State} (h : Effect i s t) : ControlFollows s t := by
  by_cases hi : i.isEvent = true
  · obtain ⟨f, rfl⟩ | ⟨pre, c, hlast⟩ := (h.eventEffect hi).lastCommand
    · exact .of_trace_eq rfl rfl
    · exact .inl ⟨pre, c, hlast.trace, hlast.control⟩
  · cases h with
    | raise => exact .of_trace_eq rfl rfl
    | init _ o =>
      cases o with
      | none => exact .of_trace_eq rfl rfl
      | some divider => exact .of_noCmd (a := .cfg divider Config.prescaler) rfl rfl rfl
    | writeConfig _ d p => exact .of_noCmd (a := .cfg d p) rfl rfl rfl
    | command _ c => exact .of_cmd rfl rfl
    | load b => exact .of_noCmd (a := .load b) rfl rfl rfl
    | submit => exact s.submit_control _ _ _
    | proceed hj | finish hj | complete hj | abandon hj => exact absurd hj hi

/-- Only a LOAD of its own, and events, write the write-collision flag (R271). -/
theorem Effect.writeCollision_eq {i : Instr} {s t : State} (h : Effect i s t) (hi : i.isEvent = false)
    (hload : ∀ b, i ≠ .load b) : t.writeCollision = s.writeCollision := by
  cases h with
  | load b hj => exact absurd hj (hload b)
  | proceed hj | finish hj | complete hj | abandon hj => rw [hi] at hj; exact absurd hj Bool.false_ne_true
  | _ => simp

theorem append_cmd_inj {base pre pre' : List Action} {c c' : Command}
    (h : base ++ pre ++ [.cmd c] = base ++ pre' ++ [.cmd c']) : pre = pre' ∧ c = c' := by
  obtain ⟨hpre, hc⟩ := List.append_inj' h rfl
  exact ⟨List.append_cancel_left hpre, by simpa using hc⟩

/-- Settles O43: the command is written with its word, and an event's latch and load stand until its command. -/
theorem registersFollowTheTrace : Obligations.RegistersFollowTheTrace := by
  intro i s t h hfault
  obtain ⟨-, he⟩ := exec_effect h
  refine ⟨fun pre c ht => ?_, fun hnone => ?_, fun st d pre c hbytes ht => ?_, he.writeCollision_eq⟩
  · obtain ⟨pre', c', ht', hctrl⟩ | ⟨hnone, -⟩ := he.control_follows
    · rw [(append_cmd_inj (ht.symm.trans ht')).2, hctrl]
    · exact absurd ht (hnone pre c)
  · obtain ⟨pre', c', ht', -⟩ | ⟨-, hctrl⟩ := he.control_follows
    · exact absurd ht' (hnone pre' c')
    · exact hctrl
  · have hi : i.isEvent = true := by rw [← eventBytes_isSome, hbytes]; rfl
    obtain ⟨pre', c', hlast⟩ := (he.eventEffect hi).lastCommand.resolve_left (not_raised hfault)
    obtain ⟨rfl, -⟩ := append_cmd_inj (ht.symm.trans hlast.trace)
    obtain ⟨st', d', hbytes', hst, hd, hw⟩ := hlast.latched
    obtain ⟨rfl, rfl⟩ : st = st' ∧ d = d' := by simpa using hbytes.symm.trans hbytes'
    exact ⟨hst, hd, hw⟩

/-! ### The bus and the line (R21, R78) -/

theorem State.drainOrIdle_line {s : State} (hcur : s.current = none) (m : StopMode) : (s.drainOrIdle m).line = s.queue := by
  obtain ⟨hqueue, hcurrent, -, -, -⟩ := s.drainOrIdle_shape m hcur
  rw [State.line, hqueue, hcurrent]
  cases s.queue <;> rfl

theorem State.drainOrIdle_busState (s : State) (hcur : s.current = none) (m : StopMode) :
    (s.drainOrIdle m).busState = s.busState ∨ (s.drainOrIdle m).busState = .idle := by
  obtain ⟨-, -, hbus, -, -⟩ := s.drainOrIdle_shape m hcur
  rw [hbus]
  split
  · exact .inr rfl
  · exact .inl rfl

/-- An event leaves the bus as it is or makes it Idle. -/
theorem EventEffect.busState {i : Instr} {s t : State} (h : EventEffect i s t) :
    t.busState = s.busState ∨ t.busState = .idle := by
  cases h with
  | raise => exact .inl rfl
  | proceed _ hu => exact .inl hu.busState
  | @ended r q q' q'' u cb o m _ hu =>
    rw [← hu.busState]
    exact (({ u with trace := u.trace ++ cb } : State).endRequest r q'' o).drainOrIdle_busState rfl m
  | abandon => exact .inr rfl

/-- An event leaves the line as it is or takes the current request off its front. -/
theorem EventEffect.line {i : Instr} {s t : State} (h : EventEffect i s t) :
    t.line = s.line ∨ ∃ r, s.current = some r ∧ s.line = r :: t.line := by
  cases h with
  | raise => exact .inl rfl
  | proceed _ hu => exact .inl (by simp [State.line, hu.current, hu.queue])
  | @ended r q q' q'' u cb o m hserv hu =>
    refine .inr ⟨r, hserv.2.1, ?_⟩
    rw [State.drainOrIdle_line rfl, State.line, hserv.2.1]
    simp [hu.queue]
  | @abandon r q q' u hserv hu =>
    refine .inr ⟨r, hserv.2.1, ?_⟩
    simp [State.line, hserv.2.1, hu.queue]

/-- Settles O55: of the effects only a dispatch makes the bus Active, and it starts from an Idle bus. -/
theorem busStateHasTwoWriters : Obligations.BusStateHasTwoWriters := by
  intro i s t h
  obtain ⟨-, he⟩ := exec_effect h
  by_cases hi : i.isEvent = true
  · refine ⟨fun hidle hactive => ?_, fun _ _ => hi⟩
    obtain hb | hb := (he.eventEffect hi).busState <;> rw [hactive] at hb
    · exact absurd (hb.trans hidle) (by decide)
    · exact absurd hb (by decide)
  · cases he with
    | @submit r q dir _ hj =>
      refine ⟨fun _ _ => ⟨r, ?_⟩, fun hactive hidle => ?_⟩
      · cases dir
        · exact .inl hj
        · exact .inr hj
      · rw [(s.submit_shape r q dir).1 hactive, State.enqueue_busState, hactive] at hidle
        exact absurd hidle (by decide)
    | proceed hj | finish hj | complete hj | abandon hj => exact absurd hj hi
    | _ =>
      refine ⟨fun hidle hactive => ?_, fun hactive hidle => ?_⟩ <;> simp [hidle, hactive] at *

/-- A SUBMIT puts its request at the end of the line. -/
theorem State.submit_line {s : State} (h : s.BusInv) (r : ReqId) (q : Request) (dir : Direction) :
    (s.enqueue r q dir).dispatch.line = s.line ++ [r] := by
  obtain ⟨hactive, hidle⟩ := s.submit_shape r q dir
  cases hb : s.busState with
  | active =>
    rw [hactive hb]
    simp [State.line]
  | idle =>
    obtain ⟨hqueue, hcurrent, -, -, -⟩ := hidle hb
    rw [State.line, hqueue, hcurrent, State.line, h.current_of_idle hb]
    cases s.queue <;> simp

/-- Settles O58: the line by the class of the instruction. -/
theorem serviceIsFifo : Obligations.ServiceIsFifo := by
  intro i s t hbus h hfault
  obtain ⟨-, he⟩ := exec_effect h
  refine ⟨fun r hi => ?_, fun hi => (he.eventEffect hi).line, fun hi hno => ?_⟩
  · obtain ⟨dir, rfl⟩ := exists_submitInstr hi
    rw [exec_submitInstr] at h
    obtain ⟨-, ⟨f, rfl, -⟩ | ⟨c, q, -, -, -, -, rfl⟩⟩ := submit_next h
    · exact absurd hfault (by simp)
    · exact s.submit_line hbus r q dir
  · cases he with
    | @submit r q dir _ hj =>
      cases dir
      · exact absurd hj (hno r).1
      · exact absurd hj (hno r).2
    | proceed hj | finish hj | complete hj | abandon hj => rw [hi] at hj; exact absurd hj Bool.false_ne_true
    | _ => simp [State.line]

end Sys2Proof.Machine

/-! PROOFS. The records and the buffers that an event, and any other instruction, may change (R28, R45, R61, R217). -/

namespace Sys2Proof.Machine

/-- The records after an event that raises nothing: that of the current request is `q''`, the head of the queue may become
Current, and every other record stays. -/
structure EventRecords (i : Instr) (s t : State) (r : ReqId) (q q'' : Request) : Prop where
  serving : s.Serving r q
  stored : Stored i q q''
  dir : q''.dir = q.dir
  device : q''.device = q.device
  len : q''.buf.len = q.buf.len
  life : q''.life = q.life ∨ q''.life = .released
  request : ∀ x, t.request x = (s.setRequest r q'').request x ∨
    s.queue.head? = some x ∧ t.request x = ((s.setRequest r q'').request x).map fun p => { p with life := .current }

theorem Progress.request_eq_setRequest {s u : State} {r : ReqId} {q q' : Request} (h : Progress s r q u q') (x : ReqId) :
    u.request x = (s.setRequest r q').request x := by
  rw [h.request, State.request_setRequest]

/-- Ending the request overwrites whatever its arm wrote into its record before. -/
theorem Progress.request_endRequest {s u : State} {r : ReqId} {q q' : Request} (h : Progress s r q u q') (p : Request)
    (o : Tag) (x : ReqId) :
    (u.endRequest r p o).request x = (s.setRequest r { p with life := .released }).request x := by
  rw [State.request_setRequest]
  by_cases hx : x = r
  · rw [if_pos hx, hx]
    exact State.request_setRequest_same _ _ _
  · rw [State.request_endRequest_other u hx, h.request, if_neg hx, if_neg hx]

theorem EventEffect.records {i : Instr} {s t : State} (h : EventEffect i s t) :
    (∃ f, t = s.raise f) ∨ ∃ r q q'', EventRecords i s t r q q'' := by
  cases h with
  | raise f => exact .inl ⟨f, rfl⟩
  | @proceed r q q' u c acts hserv hu hb =>
    exact .inr ⟨r, q, q', hserv, hb, hu.same.dir, hu.same.device, hu.same.len, .inl hu.same.life,
      fun x => .inl (hu.request_eq_setRequest x)⟩
  | @ended r q q' q'' u cb o m hserv hu hb hl hcb hq =>
    obtain ⟨b, rfl⟩ := hq
    refine .inr ⟨r, q, { q' with hasCb := b, life := .released }, hserv, hb, hu.same.dir, hu.same.device, hu.same.len,
      .inr rfl, fun x => ?_⟩
    rw [State.request_drainOrIdle, ← hu.request_endRequest { q' with hasCb := b } o x]
    split
    · rename_i hx
      exact .inr ⟨by rwa [← hu.queue], rfl⟩
    · exact .inl rfl
  | @abandon r q q' u hserv hu hb hl =>
    exact .inr ⟨r, q, { q' with life := .released }, hserv, hb, hu.same.dir, hu.same.device, hu.same.len, .inr rfl,
      fun x => .inl (hu.request_endRequest q' .unexpected x)⟩

/-! ### The frame of the events (R45) -/

theorem EventEffect.frame {i : Instr} {s t : State} (h : EventEffect i s t) :
    t.config = s.config ∧ t.initResult = s.initResult ∧ t.dividerReg = s.dividerReg := by
  cases h with
  | raise => exact ⟨rfl, rfl, rfl⟩
  | proceed _ hu | ended _ _ _ _ hu | abandon _ hu => simp [hu.config, hu.initResult, hu.dividerReg]

/-- A request that is neither current nor next keeps its record. -/
theorem EventRecords.request_other {i : Instr} {s t : State} {r : ReqId} {q q'' : Request}
    (h : EventRecords i s t r q q'') {x : ReqId} (hcur : s.current ≠ some x) (hhead : s.queue.head? ≠ some x) :
    t.request x = s.request x := by
  have hx : x ≠ r := fun e => hcur (e ▸ h.serving.2.1)
  obtain heq | ⟨hx', -⟩ := h.request x
  · rw [heq, State.request_setRequest, if_neg hx]
  · exact absurd hx' hhead

/-- A request that is not current keeps its record but for its lifecycle. -/
theorem EventRecords.request_life {i : Instr} {s t : State} {r : ReqId} {q q'' : Request}
    (h : EventRecords i s t r q q'') {x : ReqId} {p : Request} (hcur : s.current ≠ some x) (hp : s.request x = some p) :
    ∃ l, t.request x = some { p with life := l } := by
  have hx : x ≠ r := fun e => hcur (e ▸ h.serving.2.1)
  have hset : (s.setRequest r q'').request x = some p := by rw [State.request_setRequest, if_neg hx, hp]
  obtain heq | ⟨-, heq⟩ := h.request x <;> rw [heq, hset]
  · exact ⟨p.life, rfl⟩
  · exact ⟨.current, rfl⟩

/-- Every request keeps its direction, its device and its buffer's length. -/
theorem EventRecords.request_shape {i : Instr} {s t : State} {r : ReqId} {q q'' : Request}
    (h : EventRecords i s t r q q'') {x : ReqId} {p : Request} (hp : s.request x = some p) :
    ∃ p', t.request x = some p' ∧ p'.dir = p.dir ∧ p'.device = p.device ∧ p'.buf.len = p.buf.len := by
  have hset : ∃ p', (s.setRequest r q'').request x = some p' ∧ p'.dir = p.dir ∧ p'.device = p.device ∧
      p'.buf.len = p.buf.len := by
    rw [State.request_setRequest]
    by_cases hx : x = r
    · obtain rfl : q = p := Option.some.inj (h.serving.2.2.symm.trans (hx ▸ hp))
      exact ⟨q'', by rw [if_pos hx], h.dir, h.device, h.len⟩
    · exact ⟨p, by rw [if_neg hx, hp], rfl, rfl, rfl⟩
  obtain ⟨p', hp', hshape⟩ := hset
  obtain heq | ⟨-, heq⟩ := h.request x <;> rw [heq, hp']
  · exact ⟨p', rfl, hshape⟩
  · exact ⟨{ p' with life := .current }, rfl, hshape⟩

/-- Settles O30: what no instruction touches, what no event touches, and the records request by request. -/
theorem eventsKeepTheRest : Obligations.EventsKeepTheRest := by
  intro i s t hi h
  obtain ⟨-, he⟩ := exec_effect h
  have hev := he.eventEffect hi
  obtain ⟨hrefused, hclock, hwidth, hinputs⟩ := he.keeps
  obtain ⟨hconfig, hinit, hdivider⟩ := hev.frame
  refine ⟨he.devs_eq, hconfig, hrefused, hinit, hclock, hwidth, hinputs, hdivider, ?_⟩
  obtain ⟨f, rfl⟩ | ⟨r, q, q'', hrec⟩ := hev.records
  · exact ⟨fun _ _ _ => rfl, fun x q _ hq => ⟨q.life, hq⟩, fun x q hq => ⟨q, hq, rfl, rfl, rfl⟩⟩
  · exact ⟨fun x => hrec.request_other, fun x p => hrec.request_life, fun x p => hrec.request_shape⟩

/-! ### The bytes of the buffers (R61, R217) -/

theorem State.readByte_of_buf {s t : State} {x : ReqId}
    (h : (t.request x).map (fun q => q.buf) = (s.request x).map fun q => q.buf) (k : Nat) :
    t.readByte x k = s.readByte x k := by
  unfold State.readByte
  cases hs : s.request x <;> cases ht : t.request x <;> simp_all

theorem State.readByte_setRequest (s : State) (r x : ReqId) (q : Request) (k : Nat) :
    (s.setRequest r q).readByte x k = if x = r then q.buf.read k else s.readByte x k := by
  unfold State.readByte
  rw [State.request_setRequest]
  by_cases hx : x = r <;> simp [hx]

theorem EventRecords.readByte {i : Instr} {s t : State} {r : ReqId} {q q'' : Request} (h : EventRecords i s t r q q'')
    (x : ReqId) (k : Nat) : t.readByte x k = if x = r then q''.buf.read k else s.readByte x k := by
  rw [← State.readByte_setRequest]
  refine State.readByte_of_buf ?_ k
  obtain heq | ⟨-, heq⟩ := h.request x <;> rw [heq]
  rw [Option.map_map]
  rfl

/-- A SUBMIT changes no buffer. -/
theorem State.submit_readByte {s : State} {r : ReqId} {q : Request} (hq : s.request r = some q) (dir : Direction)
    (x : ReqId) (k : Nat) : (s.enqueue r q dir).dispatch.readByte x k = s.readByte x k := by
  refine State.readByte_of_buf ?_ k
  have henq : ((s.enqueue r q dir).request x).map (fun q => q.buf) = (s.request x).map fun q => q.buf := by
    rw [State.request_enqueue]
    by_cases hx : x = r
    · rw [if_pos hx, hx, hq]
      rfl
    · rw [if_neg hx]
  rw [State.request_submit, ← henq]
  split
  · rw [Option.map_map]
    rfl
  · rfl

/-- An instruction that is no event and no SUBMIT changes no record. -/
theorem Effect.reqs_or_submit {i : Instr} {s t : State} (h : Effect i s t) (hi : i.isEvent = false) :
    t.reqs = s.reqs ∨ ∃ r q dir, s.request r = some q ∧ q.life = .fresh ∧ t = (s.enqueue r q dir).dispatch := by
  cases h with
  | submit _ _ hq hl => exact .inr ⟨_, _, _, hq, hl, rfl⟩
  | proceed hj | finish hj | complete hj | abandon hj => rw [hi] at hj; exact absurd hj Bool.false_ne_true
  | _ => exact .inl (by simp)

/-- Settles O31: outside the two receive-data arms an event's record keeps its buffer. -/
theorem onlyReceivesStore : Obligations.OnlyReceivesStore := by
  intro i s t hi h x k
  obtain ⟨-, he⟩ := exec_effect h
  cases hev : i.isEvent with
  | true =>
    obtain ⟨f, rfl⟩ | ⟨r, q, q'', hrec⟩ := (he.eventEffect hev).records
    · rfl
    · have hbuf : q''.buf = q.buf := by
        obtain hbuf | ⟨st, d, -, rfl | rfl, -⟩ := hrec.stored
        · exact hbuf
        · exact absurd rfl (hi st d).1
        · exact absurd rfl (hi st d).2
      rw [hrec.readByte, hbuf]
      split
      · rename_i hx
        rw [hx, State.readByte, hrec.serving.2.2]
      · rfl
  | false =>
    obtain heq | ⟨r, q, dir, hq, -, rfl⟩ := he.reqs_or_submit hev
    · exact State.readByte_eq (by rw [State.request, heq, State.request]) k
    · exact State.submit_readByte hq dir x k

theorem Request.storeOffset_eq_some_iff (q : Request) (k : Nat) :
    q.storeOffset = some k ↔ q.cursor = k ∧ q.cursor < q.buf.len := by
  by_cases h : q.cursor < q.buf.len <;> simp [Request.storeOffset, h]

theorem Request.bufWith_read_other (q : Request) (v : Byte) {k : Nat} (h : q.storeOffset ≠ some k) :
    (q.bufWith v).read k = q.buf.read k := by
  rw [Ne, Request.storeOffset_eq_some_iff] at h
  unfold Request.bufWith
  split
  · exact Memory.read_write_other _ (fun e => h ⟨e.symm, ‹_›⟩) v
  · rfl

theorem Request.bufWith_read_cursor {q : Request} {k : Nat} (h : q.storeOffset = some k) (v : Byte) :
    (q.bufWith v).read k = some v := by
  obtain ⟨rfl, hlt⟩ := (q.storeOffset_eq_some_iff k).mp h
  rw [Request.bufWith, if_pos hlt]
  exact Memory.read_write_same _ hlt v

/-- What the receive store of an event leaves at an offset of the current request's buffer. -/
theorem Stored.read {i : Instr} {q q'' : Request} {st d : Byte} (hi : i = .evDataAckR st d ∨ i = .evDataNackR st d)
    (h : Stored i q q'') (k : Nat) :
    (q.storeOffset ≠ some k → q''.buf.read k = q.buf.read k) ∧
    (q.storeOffset = some k → q''.buf.read k = q.buf.read k ∨ q''.buf.read k = some d) := by
  obtain hbuf | ⟨st', d', v, hi', hmay, hbuf⟩ := h <;> rw [hbuf]
  · exact ⟨fun _ => rfl, fun _ => .inl rfl⟩
  · have hbytes : st = st' ∧ d = d' := by obtain rfl | rfl := hi <;> simpa using hi'
    obtain ⟨-, rfl⟩ := hbytes
    refine ⟨q.bufWith_read_other v, fun hk => ?_⟩
    rw [Request.bufWith_read_cursor hk]
    obtain ⟨rfl, -⟩ := (q.storeOffset_eq_some_iff k).mp hk
    obtain rfl | hold := hmay
    · exact .inr rfl
    · exact .inl hold.symm

/-- Settles O32: the record of the current request after the event, byte by byte. -/
theorem receiveStoresAtCursor : Obligations.ReceiveStoresAtCursor := by
  intro i s t r q st d hi hserv h
  obtain ⟨-, he⟩ := exec_effect h
  have hev : i.isEvent = true := by obtain rfl | rfl := hi <;> rfl
  have hown : ∀ k, s.readByte r k = q.buf.read k := fun k => by rw [State.readByte, hserv.2.2]
  obtain ⟨f, rfl⟩ | ⟨r', q', q'', hrec⟩ := (he.eventEffect hev).records
  · exact ⟨fun _ _ _ => rfl, fun _ _ => .inl rfl⟩
  · obtain rfl : r = r' := Option.some.inj (hserv.2.1.symm.trans hrec.serving.2.1)
    obtain rfl : q = q' := Option.some.inj (hserv.2.2.symm.trans hrec.serving.2.2)
    refine ⟨fun x k hno => ?_, fun k hk => ?_⟩
    · rw [hrec.readByte]
      by_cases hx : x = r
      · subst hx
        rw [if_pos rfl, hown]
        exact (hrec.stored.read hi k).1 fun hk => hno ⟨rfl, hk⟩
      · rw [if_neg hx]
    · rw [hrec.readByte, if_pos rfl, hown]
      exact (hrec.stored.read hi k).2 hk

/-! ### The lifecycle moves forward (R28) -/

/-- What a step may do to a record's lifecycle, and to a record that is Released. -/
def Request.MovesTo (q q' : Request) : Prop :=
  q.life.mayBecome q'.life = true ∧ (q.life = .released → { q' with buf := q.buf } = q)

theorem Request.MovesTo.of_buf (q : Request) (m : Memory) : q.MovesTo { q with buf := m } :=
  ⟨by show q.life.mayBecome q.life = true; cases q.life <;> rfl, fun _ => rfl⟩

theorem Request.MovesTo.refl (q : Request) : q.MovesTo q := .of_buf q q.buf

theorem Request.MovesTo.of_unreleased {q q' : Request} {l : Life} (hl : q.life = l) (hne : l ≠ .released)
    (hmay : l.mayBecome q'.life = true) : q.MovesTo q' :=
  ⟨hl ▸ hmay, fun e => absurd (hl.symm.trans e) hne⟩

theorem State.LifeInv.life_of_head {s : State} (h : s.LifeInv) {x : ReqId} {q : Request} (hx : s.queue.head? = some x)
    (hq : s.request x = some q) : q.life = .queued :=
  Option.some.inj ((State.lifeOf_of_request hq).symm.trans (h.head_queued hx))

theorem State.LifeInv.life_of_current {s : State} (h : s.LifeInv) {x : ReqId} {q : Request} (hx : s.current = some x)
    (hq : s.request x = some q) : q.life = .current :=
  Option.some.inj ((State.lifeOf_of_request hq).symm.trans ((h.current_iff x).mp hx))

/-- An event ends the Current request or leaves it Current, and the head of the queue is Queued. -/
theorem EventRecords.moves {i : Instr} {s t : State} {r : ReqId} {q q'' : Request} (h : EventRecords i s t r q q'')
    (hlife : s.LifeInv) {x : ReqId} {p : Request} (hp : s.request x = some p) :
    ∃ p', t.request x = some p' ∧ p.MovesTo p' := by
  obtain ⟨-, hcur, hq⟩ := h.serving
  have hset := s.request_setRequest r x q''
  by_cases hx : x = r
  · subst hx
    obtain rfl : q = p := Option.some.inj (hq.symm.trans hp)
    have hcurrent := hlife.life_of_current hcur hq
    obtain heq | ⟨hhead, -⟩ := h.request x
    · refine ⟨q'', by rw [heq, hset, if_pos rfl], .of_unreleased hcurrent (by decide) ?_⟩
      obtain hl | hl := h.life
      · rw [hl, hcurrent]
        rfl
      · rw [hl]
        rfl
    · exact absurd (List.mem_of_mem_head? hhead) (hlife.current_not_queued hcur)
  · rw [if_neg hx, hp] at hset
    obtain heq | ⟨hhead, heq⟩ := h.request x <;> rw [heq, hset]
    · exact ⟨p, rfl, .refl p⟩
    · exact ⟨{ p with life := .current }, rfl, .of_unreleased (hlife.life_of_head hhead hp) (by decide) rfl⟩

/-- A SUBMIT takes a Fresh request to Queued or Current, and on an Idle bus the head of the queue to Current. -/
theorem State.submit_moves {s : State} (hlife : s.LifeInv) {r : ReqId} {q : Request} (hq : s.request r = some q)
    (hfresh : q.life = .fresh) (dir : Direction) {x : ReqId} {p : Request} (hp : s.request x = some p) :
    ∃ p', (s.enqueue r q dir).dispatch.request x = some p' ∧ p.MovesTo p' := by
  rw [State.request_submit, State.request_enqueue]
  by_cases hx : x = r
  · subst hx
    obtain rfl : q = p := Option.some.inj (hq.symm.trans hp)
    rw [if_pos rfl]
    split
    · exact ⟨_, rfl, .of_unreleased hfresh (by decide) rfl⟩
    · exact ⟨_, rfl, .of_unreleased hfresh (by decide) rfl⟩
  · rw [if_neg hx, hp]
    split
    · rename_i hstart
      have hmem : x ∈ s.queue := by simpa [hx] using List.mem_of_mem_head? hstart.2
      have hqueued := Option.some.inj ((State.lifeOf_of_request hp).symm.trans ((hlife.mem_queue_iff x).mp hmem))
      exact ⟨_, rfl, .of_unreleased hqueued (by decide) rfl⟩
    · exact ⟨p, rfl, .refl p⟩

theorem Effect.moves {i : Instr} {s t : State} (h : Effect i s t) (hlife : s.LifeInv) {x : ReqId} {p : Request}
    (hp : s.request x = some p) : ∃ p', t.request x = some p' ∧ p.MovesTo p' := by
  cases hev : i.isEvent with
  | true =>
    obtain ⟨f, rfl⟩ | ⟨r, q, q'', hrec⟩ := (h.eventEffect hev).records
    · exact ⟨p, hp, .refl p⟩
    · exact hrec.moves hlife hp
  | false =>
    obtain heq | ⟨r, q, dir, hq, hfresh, rfl⟩ := h.reqs_or_submit hev
    · exact ⟨p, by rw [State.request, heq]; exact hp, .refl p⟩
    · exact State.submit_moves hlife hq hfresh dir hp

theorem Response.moves {inp : Input} {s t : State} (h : Response inp s t) (hlife : s.LifeInv) {x : ReqId} {p : Request}
    (hp : s.request x = some p) : ∃ p', t.request x = some p' ∧ p.MovesTo p' := by
  cases h with
  | refuse | newDevice => exact ⟨p, hp, .refl p⟩
  | @newRequest r dev n buf cb hr =>
    have hx : x ≠ r := fun e => by rw [e, hr] at hp; exact absurd hp (by simp)
    exact ⟨p, by rw [State.request_setRequest, if_neg hx, hp], .refl p⟩
  | @hostWrite r k q v hq =>
    rw [State.request_setRequest]
    by_cases hx : x = r
    · obtain rfl : q = p := Option.some.inj (hq.symm.trans (hx ▸ hp))
      exact ⟨_, by rw [if_pos hx], .of_buf q _⟩
    · exact ⟨p, by rw [if_neg hx, hp], .refl p⟩
  | run _ _ he => exact he.moves hlife hp

/-- Settles O52: the response to one input, by the class of what it does. -/
theorem lifecycleMovesForward : Obligations.LifecycleMovesForward := by
  intro s t x p hlife h hp
  obtain ⟨-, rfl | ⟨inp, rest, -, hr⟩⟩ := step_response h
  · exact ⟨p, hp, Request.MovesTo.refl p⟩
  · exact hr.moves (hlife.congr rfl rfl fun _ => rfl) hp

end Sys2Proof.Machine

/-! PROOFS. The masked-away status bits and an unused data byte decide nothing (R91, R170). -/

namespace Sys2Proof.Machine

/-- The results of an arm are the same but for what an event latches. -/
def sameResult : Except Fault State → Except Fault State → Prop
  | .ok t, .ok u => t.forgetLatch = u.forgetLatch
  | .error f, .error g => f = g
  | _, _ => False

/-- The arm's result does not depend on what was latched. -/
def LatchBlind (arm : State → ReqId → Request → Except Fault State) : Prop :=
  ∀ (s : State) (st st' d d' : Byte) (r : ReqId) (q : Request),
    sameResult (arm (s.latch st d) r q) (arm (s.latch st' d') r q)

theorem sameButLatch_refl (o : Host.Outcome State Fault Refusal) : sameButLatch o o := by
  cases o <;> rfl

theorem commit_sameButLatch (s : State) {a b : Except Fault State} (h : sameResult a b) :
    sameButLatch (commit s a) (commit s b) := by
  cases a <;> cases b
  · obtain rfl : _ = _ := h
    exact sameButLatch_refl _
  · exact h.elim
  · exact h.elim
  · exact h

/-- Two events whose arms give the same results have the same outcome: the entry looks at neither byte. -/
theorem event_sameButLatch {s : State} {st st' d d' : Byte} {arm : State → ReqId → Request → Except Fault State}
    (harm : ∀ r q, sameResult (arm (s.latch st d) r q) (arm (s.latch st' d') r q)) :
    sameButLatch (event st d arm s) (event st' d' arm s) := by
  unfold event guarded
  split
  · rfl
  · split
    · rfl
    · dsimp only
      split
      · rfl
      · split
        · rfl
        · exact commit_sameButLatch s (harm _ _)

theorem LatchBlind.event {arm : State → ReqId → Request → Except Fault State} (h : LatchBlind arm) (s : State)
    (st st' d d' : Byte) : sameButLatch (event st d arm s) (event st' d' arm s) :=
  event_sameButLatch (h s st st' d d')

theorem State.forgetLatch_startHead (s : State) (c : Command) :
    (s.startHead c).forgetLatch = s.forgetLatch.startHead c := by
  cases hq : s.queue with
  | nil => rw [State.startHead_nil hq, State.startHead_nil (s := s.forgetLatch) hq]
  | cons n rest =>
    rw [State.startHead_cons hq, State.startHead_cons (s := s.forgetLatch) hq]
    unfold State.setLife
    cases hn : s.request n <;> simp_all [State.request, State.forgetLatch] <;> rfl

theorem State.forgetLatch_drainOrIdle (s : State) (m : StopMode) :
    (s.drainOrIdle m).forgetLatch = s.forgetLatch.drainOrIdle m := by
  cases hq : s.queue with
  | nil =>
    rw [State.drainOrIdle_nil hq, State.drainOrIdle_nil (s := s.forgetLatch) hq]
    rfl
  | cons n rest =>
    rw [State.drainOrIdle_cons hq, ← State.startHead_cons hq, State.forgetLatch_startHead,
      State.drainOrIdle_cons (s := s.forgetLatch) hq, ← State.startHead_cons (s := s.forgetLatch) hq]

theorem State.forgetLatch_completion (s : State) (r : ReqId) (q : Request) :
    (s.completion r q).forgetLatch = s.forgetLatch.completion r q := by
  rw [State.completion_eq, State.forgetLatch_drainOrIdle, State.completion_eq]
  rfl

theorem latchBlind_addressPhase : LatchBlind addressPhase := by
  intro s st st' d d' r q
  cases hdev : s.device q.device with
  | none =>
    have hfault : ∀ st d, addressPhase (s.latch st d) r q = .error .danglingRecord := fun st d => by
      unfold addressPhase
      rw [show (s.latch st d).device q.device = none from hdev]
    rw [hfault, hfault]
    rfl
  | some dev =>
    rw [addressPhase_of_device (t := s.latch st d) hdev, addressPhase_of_device (t := s.latch st' d') hdev]
    rfl

theorem sendByteAtCursor_same (t u : State) (q : Request) (h : ∀ b, (t.load b).forgetLatch = (u.load b).forgetLatch) :
    sameResult (sendByteAtCursor t q) (sendByteAtCursor u q) := by
  unfold sendByteAtCursor
  split
  · rename_i b hb
    exact congrArg (fun v => (v.command .transmit).forgetLatch) (h b)
  · rfl

theorem State.forgetLatch_rxCompletion (s : State) (r : ReqId) (q : Request) :
    (s.rxCompletion r q).forgetLatch = s.forgetLatch.rxCompletion r q :=
  State.forgetLatch_drainOrIdle _ _

theorem State.forgetLatch_nackRecovery (s : State) (r : ReqId) (q : Request) (o : Tag) :
    (s.nackRecovery r q o).forgetLatch = s.forgetLatch.nackRecovery r q o :=
  State.forgetLatch_drainOrIdle _ _

theorem latchBlind_addrAckW :
    LatchBlind fun t cur q => if q.remaining = 0 then .ok (t.completion cur q) else sendByteAtCursor t q := by
  intro s st st' d d' r q
  dsimp only
  split
  · show State.forgetLatch _ = State.forgetLatch _
    rw [State.forgetLatch_completion, State.forgetLatch_completion]
    rfl
  · exact sendByteAtCursor_same _ _ q fun _ => rfl

theorem latchBlind_dataAckW :
    LatchBlind fun t cur q =>
      if q.remaining = 0 then .error .remUnderflow
      else if q.advance.wantsMore then sendByteAtCursor (t.setRequest cur q.advance) q.advance
      else .ok ((t.setRequest cur q.advance).completion cur q.advance) := by
  intro s st st' d d' r q
  dsimp only
  split
  · rfl
  · split
    · exact sendByteAtCursor_same _ _ q.advance fun _ => rfl
    · show State.forgetLatch _ = State.forgetLatch _
      rw [State.forgetLatch_completion, State.forgetLatch_completion]
      rfl

theorem latchBlind_addrAckR :
    LatchBlind fun t cur q => if q.remaining = 0 then .ok (t.rxCompletion cur q) else .ok (t.command .ack) := by
  intro s st st' d d' r q
  dsimp only
  split
  · show State.forgetLatch _ = State.forgetLatch _
    rw [State.forgetLatch_rxCompletion, State.forgetLatch_rxCompletion]
    rfl
  · rfl

theorem latchBlind_nackRecovery (o : Tag) : LatchBlind fun t cur q => .ok (t.nackRecovery cur q o) := by
  intro s st st' d d' r q
  show State.forgetLatch _ = State.forgetLatch _
  rw [State.forgetLatch_nackRecovery, State.forgetLatch_nackRecovery]
  rfl

theorem latchBlind_evOther :
    LatchBlind fun t cur q => .ok (({ t.endRequest cur q .unexpected with busState := .idle } : State).command .stop) :=
  fun _ _ _ _ _ _ _ => rfl

/-- With the data byte fixed, the status byte of EV_DATA_ACK_R is only latched. -/
theorem evDataAckR_sameButLatch (s : State) (st st' d : Byte) :
    sameButLatch (exec (.evDataAckR st d) s) (exec (.evDataAckR st' d) s) := by
  dsimp only [exec, execEvDataAckR]
  refine event_sameButLatch fun r q => ?_
  split
  · rfl
  · show State.forgetLatch _ = State.forgetLatch _
    rw [State.rxCallback_eq, State.rxCallback_eq]
    rfl

/-- With the data byte fixed, the status byte of EV_DATA_NACK_R is only latched. -/
theorem evDataNackR_sameButLatch (s : State) (st st' d : Byte) :
    sameButLatch (exec (.evDataNackR st d) s) (exec (.evDataNackR st' d) s) := by
  dsimp only [exec, execEvDataNackR]
  refine event_sameButLatch fun r q => ?_
  show State.forgetLatch _ = State.forgetLatch _
  rw [State.forgetLatch_rxCompletion, State.forgetLatch_rxCompletion, State.rxCallback_eq, State.rxCallback_eq]
  rfl

/-- Settles O33: arm by arm, what was latched only passes through. -/
theorem unusedEventBytesDecideNothing : Obligations.UnusedEventBytesDecideNothing := by
  refine ⟨fun ev hev s st st' d d' => ?_, fun ev hev s st st' d => ?_⟩ <;>
    simp only [List.mem_cons, List.not_mem_nil, or_false] at hev
  · obtain rfl | rfl | rfl | rfl | rfl | rfl | rfl | rfl | rfl := hev
    · exact latchBlind_addressPhase.event s st st' d d'
    · exact latchBlind_addressPhase.event s st st' d d'
    · exact latchBlind_addrAckW.event s st st' d d'
    · exact (latchBlind_nackRecovery .addrNack).event s st st' d d'
    · exact latchBlind_dataAckW.event s st st' d d'
    · exact (latchBlind_nackRecovery .dataNack).event s st st' d d'
    · exact latchBlind_addrAckR.event s st st' d d'
    · exact (latchBlind_nackRecovery .addrNack).event s st st' d d'
    · exact latchBlind_evOther.event s st st' d d'
  · obtain rfl | rfl := hev
    · exact evDataAckR_sameButLatch s st st' d
    · exact evDataNackR_sameButLatch s st st' d

end Sys2Proof.Machine

/-! PROOFS. Reset, the delivery of an input, and the host's directives (R17, R42, R44, R46, R71, R110). -/

namespace Sys2Proof.Machine

/-- Settles O9: the fields of the reset state. -/
theorem resetRecord : Obligations.ResetRecord := ⟨rfl, rfl, rfl, rfl, rfl, rfl, rfl, rfl, rfl, rfl⟩

/-- Settles O46: with no record, no queue and no action every invariant holds. -/
theorem invariantsAtReset : Obligations.InvariantsAtReset := by
  have hnone : ∀ r q, State.reset.request r ≠ some q := fun _ _ => by simp [State.reset, State.request]
  refine ⟨⟨by decide, ?_, ?_⟩, by decide, ⟨List.Pairwise.nil, List.Pairwise.nil, ?_⟩, ⟨?_, ?_, .inl rfl⟩, by decide,
    ⟨by decide, ?_⟩⟩
  · refine ⟨List.nodup_nil, fun r hr => ?_, fun r hr => ?_, fun r q hq => ?_, fun r q hq => ?_⟩
    · exact absurd hr List.not_mem_nil
    · exact absurd hr (by simp [State.reset])
    · exact absurd hq (hnone r q)
    · exact absurd hq (hnone r q)
  · exact (State.traceInv_iff _).mpr fun x => ⟨rfl, Nat.le_refl 0⟩
  · exact fun r q hq => absurd hq (hnone r q)
  · exact fun r q hq => absurd hq (hnone r q)
  · exact fun c hc => absurd hc (by simp [State.reset])
  · exact fun r q hq => absurd hq (hnone r q)

/-! ### One input -/

theorem step_input {s : State} {inp : Input} {rest : List Input} (hrun : s.Running) (hin : s.inputs = inp :: rest) :
    step s = respond inp { s with inputs := rest } := by
  rw [step_running hrun, deliverNext, hin]

theorem respond_decoded {p : Packet} {i : Instr} (h : decodePacket p = .ok i) (s : State) :
    respond (.packet p) s = exec i s := by
  rw [respond, h]

theorem respond_rejected {p : Packet} {e : DecodeError} (h : decodePacket p = .error e) (s : State) :
    respond (.packet p) s = rejectPacket e s := by
  rw [respond, h]

/-- Settles O10: the delivery decodes the packet and runs its instruction. -/
theorem stepRunsDecoded : Obligations.StepRunsDecoded := by
  intro s p i rest hrun hin hi
  rw [step_input hrun hin, respond_decoded hi]

theorem decodePacket_of_tableWord {nbits w : Nat} {i : Instr} (h : decodeTableWord nbits w = some i) :
    decodePacket (tablePacket nbits w) = .ok i := by
  unfold decodeTableWord at h
  split at h
  · rename_i j hj
    rw [hj, Option.some.inj h]
  · exact absurd h (by simp)

/-- Settles O11: the word's packet is the next input, and taking it off gives the state back. -/
theorem fetchWordRuns : Obligations.FetchWordRuns := by
  intro s nbits w i hrun hi
  exact stepRunsDecoded (s.withFetchWord nbits w) (tablePacket nbits w) i s.inputs hrun rfl (decodePacket_of_tableWord hi)

/-- Settles O12: a rejected record is refused by its reason. -/
theorem refusedRecordsSetMark : Obligations.RefusedRecordsSetMark := by
  intro s w rest hrun hin
  refine ⟨fun h => ?_, fun h => ?_⟩
  · rw [step_input hrun hin, respond_rejected (p := .record w) h]
    rfl
  · rw [step_input hrun hin, respond_rejected (p := .record w) h]
    rfl

/-! ### Directives -/

theorem step_directive {s : State} {dir : Directive} {rest : List Input} (hrun : s.Running)
    (hin : s.inputs = .directive dir :: rest) : step s = direct dir { s with inputs := rest } := by
  rw [step_input hrun hin, respond]

theorem State.newDevice_new {s : State} {d : DevId} (h : s.device d = none) (addr : BusAddr) :
    s.newDevice d addr = { s with devs := Table.put s.devs d { addr := addr } } := by
  rw [State.newDevice, h]

theorem State.newDevice_used {s : State} {d : DevId} (h : (s.device d).isSome = true) (addr : BusAddr) :
    s.newDevice d addr = s.refuse .idInUse := by
  obtain ⟨dev, hdev⟩ := Option.isSome_iff_exists.mp h
  rw [State.newDevice, hdev]

/-- Settles O15: the table of devices is written under the new identifier alone. -/
theorem newDeviceCreates : Obligations.NewDeviceCreates := by
  intro s d addr rest hrun hin
  have hstep : step s = .next (({ s with inputs := rest } : State).newDevice d addr) := by
    rw [step_directive hrun hin, direct_fits rfl, obey]
  refine ⟨fun hnew => ⟨_, hstep, ?_⟩, fun hused => ?_⟩
  · rw [State.newDevice_new (s := { s with inputs := rest }) hnew]
    exact ⟨Table.get_put_same _ _ _, fun x hx => Table.get_put_other _ hx _, rfl⟩
  · rw [hstep, State.newDevice_used (s := { s with inputs := rest }) hused]
    rfl

theorem State.newRequest_new {s : State} {r : ReqId} {d : DevId} (hr : s.request r = none) (hd : (s.device d).isSome = true)
    (buf : List Byte) (n : Nat) (cb : Bool) :
    s.newRequest r d buf n cb = s.setRequest r
      { dir := .write, device := d, buf := Memory.ofBytes buf, cursor := 0, remaining := n, hasCb := cb, life := .fresh } := by
  obtain ⟨dev, hdev⟩ := Option.isSome_iff_exists.mp hd
  rw [State.newRequest, hr, hdev]

theorem State.newRequest_used {s : State} {r : ReqId} (hr : (s.request r).isSome = true) (d : DevId) (buf : List Byte)
    (n : Nat) (cb : Bool) : s.newRequest r d buf n cb = s.refuse .idInUse := by
  obtain ⟨q, hq⟩ := Option.isSome_iff_exists.mp hr
  rw [State.newRequest, hq]

theorem State.newRequest_noDevice {s : State} {r : ReqId} {d : DevId} (hr : s.request r = none) (hd : s.device d = none)
    (buf : List Byte) (n : Nat) (cb : Bool) : s.newRequest r d buf n cb = s.refuse .noDevice := by
  rw [State.newRequest, hr, hd]

/-- Settles O16: the checks in their order, and the new record with a buffer of the bytes given. -/
theorem newRequestCreates : Obligations.NewRequestCreates := by
  intro s r d buf n cb rest hrun hin
  have hstep : n < 2 ^ s.remWidth → step s = .next (({ s with inputs := rest } : State).newRequest r d buf n cb) := fun hn => by
    rw [step_directive hrun hin]
    exact direct_fits (decide_eq_true hn)
  refine ⟨fun hn hr hd => ?_, fun hn hr => ?_, fun hn hr hd => ?_, fun hn => ?_⟩
  · have hnew := State.newRequest_new (s := { s with inputs := rest }) hr hd buf n cb
    refine ⟨_, _, (hstep hn).trans (congrArg _ hnew), State.request_setRequest_same _ _ _, rfl, rfl, rfl, rfl, rfl, rfl, rfl,
      fun k => ?_, fun x hx => ?_, rfl⟩
    · rw [State.readByte_setRequest, if_pos rfl, Memory.read_ofBytes]
    · rw [State.request_setRequest, if_neg hx]
      rfl
  · rw [hstep hn, State.newRequest_used (s := { s with inputs := rest }) hr]
    rfl
  · rw [hstep hn, State.newRequest_noDevice (s := { s with inputs := rest }) hr hd]
    rfl
  · rw [step_directive hrun hin]
    exact direct_wide (decide_eq_false (Nat.not_lt.mpr hn))

theorem State.hostWrite_inside {s : State} {r : ReqId} {q : Request} {k : Nat} (hq : s.request r = some q)
    (hk : k < q.buf.len) (v : Byte) : s.hostWrite r k v = some (s.setRequest r { q with buf := q.buf.write k v }) := by
  simp only [State.hostWrite, hq, if_pos hk]

/-- Settles O17: the write reaches one byte of one buffer. -/
theorem hostWriteReachesBuffer : Obligations.HostWriteReachesBuffer := by
  intro s r k v q rest hrun hin hq hk
  have hwrite := State.hostWrite_inside (s := { s with inputs := rest }) hq hk v
  refine ⟨({ s with inputs := rest } : State).setRequest r { q with buf := q.buf.write k v }, ?_, ?_, fun x j hne => ?_,
    ⟨_, State.request_setRequest_same _ _ _, rfl⟩, rfl⟩
  · rw [step_directive hrun hin, direct_fits rfl, obey, hwrite]
  · rw [State.readByte_setRequest, if_pos rfl]
    exact Memory.read_write_same _ hk v
  · rw [State.readByte_setRequest]
    by_cases hx : x = r
    · have hj : j ≠ k := hne.resolve_left fun h => h hx
      rw [if_pos hx, hx, State.readByte, hq]
      exact Memory.read_write_other _ hj v
    · rw [if_neg hx]
      rfl

end Sys2Proof.Machine

/-! PROOFS. INIT, and the register writes as steps of their own (R130 to R137, R260 to R271). -/

namespace Sys2Proof.Machine

/-- The effective frequency is at most a sixteenth of the clock. -/
theorem effectiveHz_le (clock p divider : Nat) : 16 * effectiveHz clock p divider ≤ clock := by
  have hle : effectiveHz clock p divider ≤ clock / 16 := Nat.div_le_div_left (Nat.le_add_right _ _) (by decide)
  omega

/-- INIT's five checks come down to three: the one-tenth guards of the target and of the effective frequency decide nothing
(R136). -/
theorem initDivider_eq (clock p dm target : Nat) :
    initDivider clock p dm target =
      if 0 < target ∧ 16 * target ≤ clock ∧ dividerFor clock p target ≤ dm then some (dividerFor clock p target)
      else none := by
  have heff := effectiveHz_le clock p (dividerFor clock p target)
  unfold initDivider
  split <;> rename_i ha
  · rw [if_neg (by omega)]
  split <;> rename_i hb
  · rw [if_neg (by omega)]
  split <;> rename_i hc
  · rw [if_neg (by omega)]
  split <;> rename_i hd
  · rw [if_neg (by omega)]
  rw [if_neg (by omega), if_pos (by omega)]

/-- Settles O20: the equation of the three checks, and arithmetic on the two guards of the target. -/
theorem initChecksRedundant : Obligations.InitChecksRedundant := by
  intro clock p dm target _
  refine ⟨fun hpos hclock hdm => ?_, fun h => by omega⟩
  rw [initDivider_eq, if_pos ⟨hpos, hclock, hdm⟩]

/-- Rounding the divider down never makes the clock slower than the target (R132). -/
theorem le_effectiveHz {clock target : Nat} (p : Nat) (h : 16 * target ≤ clock) :
    target ≤ effectiveHz clock p (dividerFor clock p target) := by
  have hdiv : dividerFor clock p target * (2 * p ^ 2 * target) ≤ clock - 16 * target := Nat.div_mul_le_self _ _
  rw [effectiveHz, Nat.le_div_iff_mul_le (by omega)]
  calc target * (16 + 2 * p ^ 2 * dividerFor clock p target)
      = 16 * target + dividerFor clock p target * (2 * p ^ 2 * target) := by ring
    _ ≤ clock := by omega

/-- Settles O21: the divider rounds down, and a sixteenth of the clock leaves nothing to divide. -/
theorem initFrequencyBounds : Obligations.InitFrequencyBounds := by
  refine ⟨fun clock p dm target d h => ?_, fun p target => ?_⟩
  · rw [initDivider_eq] at h
    split at h
    · rename_i hchecks
      obtain rfl := Option.some.inj h
      have heff := effectiveHz_le clock p (dividerFor clock p target)
      exact ⟨le_effectiveHz p hchecks.2.1, by omega, hchecks.2.2⟩
    · exact absurd h (by simp)
  · rw [dividerFor, Nat.sub_self, Nat.zero_div]

theorem dividerFor_prescaler (clock target : Nat) :
    dividerFor clock Config.prescaler target = (clock - 16 * target) / (2 * target) := by
  rw [dividerFor, Config.prescaler, one_pow, Nat.mul_one]

theorem execInit_unconfigured {s : State} (hrun : s.Running) (hc : s.config = none) (target : Nat) :
    exec (.init target) s = .next (s.finishInit (initDivider s.coreClock Config.prescaler Config.divMax target)) := by
  rw [exec, execInit, guarded_running hrun, hc]

theorem execInit_configured {s : State} {c : BusConfig} (hrun : s.Running) (hc : s.config = some c) (target : Nat) :
    exec (.init target) s = .next (s.raise .reinit) := by
  rw [exec, execInit, guarded_running hrun, hc]

/-- The prescaler value 1 has the select 0b00 (R39). -/
theorem withPrescalerSelect_prescaler (st : Byte) :
    withPrescalerSelect st (Config.prescalerSelect Config.prescaler) = st &&& 0xFC#8 := by
  revert st
  decide

/-- Settles O18: the three checks pass, and the end of INIT writes configuration, result and registers. -/
theorem initConfigures : Obligations.InitConfigures := by
  intro s target hrun hc hpos hclock hdm
  rw [execInit_unconfigured hrun hc, initDivider_eq, dividerFor_prescaler, if_pos ⟨hpos, hclock, hdm⟩,
    ← withPrescalerSelect_prescaler]
  rfl

/-- Settles O19: each of the four conditions fails one of the three checks. -/
theorem initErrorsAndReinit : Obligations.InitErrorsAndReinit := by
  intro s target hrun
  refine ⟨fun hc hbad => ?_, fun hc => ?_⟩
  · have hnot : ¬(0 < target ∧ 16 * target ≤ s.coreClock ∧
        (s.coreClock - 16 * target) / (2 * target) ≤ Config.divMax) := by
      rintro ⟨hpos, hclock, hdm⟩
      rw [Config.divMax] at hdm
      omega
    rw [execInit_unconfigured hrun hc, initDivider_eq, dividerFor_prescaler, if_neg hnot]
    rfl
  · obtain ⟨c, hc⟩ := Option.ne_none_iff_exists'.mp hc
    exact execInit_configured hrun hc target

/-! ### Register writes as steps (log entry 15) -/

theorem primitive_running {s : State} (hrun : s.Running) (c : Command) : primitive c s = .next (s.command c) :=
  guarded_running hrun _

/-- Settles O44: each command row runs the shared primitive. -/
theorem commandsWriteAndArm : Obligations.CommandsWriteAndArm := by
  intro s i c word arm hrun hmem
  have hrow : exec i s = primitive c s ∧ word = Config.ctrlWord c ∧ arm = arms c := by
    simp only [List.mem_cons, Prod.mk.injEq, List.not_mem_nil, or_false] at hmem
    obtain h | h | h | h | h | h | h | h := hmem <;> obtain ⟨rfl, rfl, rfl, rfl⟩ := h <;> exact ⟨rfl, rfl, rfl⟩
  obtain ⟨hexec, rfl, rfl⟩ := hrow
  rw [hexec, primitive_running hrun]
  rfl

/-- Settles O45: LOAD's flag is the negated arming, and CFG's select is R39's where R39 gives one. -/
theorem loadAndCfgWriteRegisters : Obligations.LoadAndCfgWriteRegisters := by
  intro s hrun
  refine ⟨fun b => ?_, fun divider p => ⟨Config.prescalerSelect p, ?_, ?_, ?_, ?_, ?_⟩⟩
  · have hflag : (if s.armed then false else true) = !s.armed := by cases s.armed <;> rfl
    rw [exec, execLoad, guarded_running hrun, hflag]
    rfl
  · rintro rfl; rfl
  · rintro rfl; rfl
  · rintro rfl; rfl
  · rintro rfl; rfl
  · rw [exec, execCfg, guarded_running hrun, State.writeConfig, BitVec.ofNat_toNat, BitVec.setWidth_eq]
    rfl

end Sys2Proof.Machine

/-! PROOFS. An accepted SUBMIT on an Idle and on an Active bus (R151 to R153). -/

namespace Sys2Proof.Machine

/-- Starting a head that has a record: it is current, and the command is issued (R152). -/
theorem State.startHead_next {s : State} {n : ReqId} {rest : List ReqId} {qn : Request} (hqueue : s.queue = n :: rest)
    (hn : s.request n = some qn) (c : Command) :
    s.startHead c = { s with
      queue := rest, current := some n, reqs := Table.put s.reqs n { qn with life := .current }
      armed := arms c, controlReg := Config.ctrlWord c, trace := s.trace ++ [.cmd c] } := by
  rw [State.startHead_cons hqueue,
    State.setLife_of_some (s := { s with queue := rest, current := some n }) (r := n) (q := qn) hn]
  rfl

theorem exists_submitInstr_of_mem {i : Instr} {r : ReqId} {dir : Direction}
    (h : (i, dir) ∈ [(Instr.submitW r, Direction.write), (.submitR r, .read)]) : i = submitInstr r dir := by
  simp only [List.mem_cons, Prod.mk.injEq, List.not_mem_nil, or_false] at h
  obtain ⟨rfl, rfl⟩ | ⟨rfl, rfl⟩ := h <;> rfl

theorem exec_submit_ready {i : Instr} {s : State} {r : ReqId} {q : Request} {c : BusConfig} {dir : Direction}
    (hi : (i, dir) ∈ [(Instr.submitW r, Direction.write), (.submitR r, .read)]) (hrun : s.Running) (hc : s.config = some c)
    (hq : s.request r = some q) (hl : q.life = .fresh) : exec i s = .next (s.enqueue r q dir).dispatch := by
  rw [exists_submitInstr_of_mem hi, exec_submitInstr]
  exact submit_ready hrun hc hq hl rfl

/-- Settles O23: the dispatch on an Idle bus starts the head of the queue that the request has joined. -/
theorem submitStartsHead : Obligations.SubmitStartsHead := by
  intro s r q c i dir hi hrun hc hq hl hb
  refine ⟨_, exec_submit_ready hi hrun hc hq hl, fun hqueue => ?_, fun n rest qn hnext => ?_⟩
  · have hhead : ({ s.enqueue r q dir with busState := .active } : State).queue = r :: [] := by simp [hqueue]
    have hrec : ({ s.enqueue r q dir with busState := .active } : State).request r =
        some { q with dir := dir, life := .queued } := State.request_setRequest_same _ _ _
    rw [State.dispatch_idle (s := s.enqueue r q dir) hb, State.startHead_next hhead hrec]
    simp [arms, hqueue, State.enqueue, State.setRequest]
  · obtain ⟨hqueue, hne, hn⟩ := hnext
    have hhead : ({ s.enqueue r q dir with busState := .active } : State).queue = n :: (rest ++ [r]) := by simp [hqueue]
    have hrec : ({ s.enqueue r q dir with busState := .active } : State).request n = some qn :=
      (State.request_enqueue s r q dir n).trans (by rw [if_neg hne, hn])
    rw [State.dispatch_idle (s := s.enqueue r q dir) hb, State.startHead_next hhead hrec]
    rfl

/-- Settles O24: the dispatch on an Active bus adds nothing to the enqueue. -/
theorem submitQueuesWhileActive : Obligations.SubmitQueuesWhileActive := by
  intro s r q c i dir hi hrun hc hq hl hb
  rw [exec_submit_ready hi hrun hc hq hl, State.dispatch_active (s := s.enqueue r q dir) hb]
  rfl

end Sys2Proof.Machine

/-! PROOFS. The results of the data arms, and how a transfer completes (R190 to R217, R235 to R237). -/

namespace Sys2Proof.Machine

/-! ### The arms of a served event -/

section Serving

variable {s : State} {r : ReqId} {q : Request}

theorem exec_evAddrAckW_serving (hs : s.Serving r q) (st d : Byte) :
    exec (.evAddrAckW st d) s =
      commit s (if q.remaining = 0 then .ok ((s.latch st d).completion r q) else sendByteAtCursor (s.latch st d) q) := by
  dsimp only [exec, execEvAddrAckW]
  rw [event_serving hs]

theorem exec_evDataAckW_serving (hs : s.Serving r q) (st d : Byte) :
    exec (.evDataAckW st d) s =
      commit s (if q.remaining = 0 then .error .remUnderflow
        else if q.advance.wantsMore then sendByteAtCursor ((s.latch st d).setRequest r q.advance) q.advance
        else .ok (((s.latch st d).setRequest r q.advance).completion r q.advance)) := by
  dsimp only [exec, execEvDataAckW]
  rw [event_serving hs]

theorem exec_evAddrAckR_serving (hs : s.Serving r q) (st d : Byte) :
    exec (.evAddrAckR st d) s =
      .next (if q.remaining = 0 then (s.latch st d).rxCompletion r q else (s.latch st d).command .ack) := by
  dsimp only [exec, execEvAddrAckR]
  rw [event_serving hs]
  split <;> rfl

theorem exec_evDataAckR_underflow (hs : s.Serving r q) (hzero : q.remaining = 0) (st d : Byte) :
    exec (.evDataAckR st d) s = .next (s.raise .remUnderflow) := by
  dsimp only [exec, execEvDataAckR]
  rw [event_serving hs, if_pos hzero]
  rfl

/-! ### Sending bytes (R190, R194) -/

theorem Request.advance_wantsMore (q : Request) : q.advance.wantsMore = decide (1 < q.remaining) := by
  have hiff : 0 < q.remaining - 1 ↔ 1 < q.remaining := by omega
  exact decide_eq_decide.mpr hiff

theorem sendByteAtCursor_of_read {b : Byte} (h : q.buf.read q.cursor = some b) (t : State) :
    sendByteAtCursor t q = .ok ((t.load b).command .transmit) := by
  rw [sendByteAtCursor, Request.byteAtCursor, h]

theorem sendByteAtCursor_beyond (h : q.buf.len ≤ q.cursor) (t : State) : sendByteAtCursor t q = .error .bufBounds := by
  rw [sendByteAtCursor, Request.byteAtCursor, (Memory.read_eq_none q.buf q.cursor).mpr h]

theorem exec_evAddrAckW_sends {b : Byte} (hs : s.Serving r q) (hpos : 0 < q.remaining)
    (hb : q.buf.read q.cursor = some b) (st d : Byte) :
    exec (.evAddrAckW st d) s = .next (((s.latch st d).load b).command .transmit) := by
  rw [exec_evAddrAckW_serving hs, if_neg (Nat.pos_iff_ne_zero.mp hpos), sendByteAtCursor_of_read hb]
  rfl

theorem exec_evDataAckW_more (hs : s.Serving r q) (hmore : 1 < q.remaining) (st d : Byte) :
    exec (.evDataAckW st d) s = commit s (sendByteAtCursor ((s.latch st d).setRequest r q.advance) q.advance) := by
  rw [exec_evDataAckW_serving hs, if_neg (by omega), if_pos (by rw [Request.advance_wantsMore]; exact decide_eq_true hmore)]

theorem exec_evDataAckW_sends {b : Byte} (hs : s.Serving r q) (hmore : 1 < q.remaining)
    (hb : q.buf.read (q.cursor + 1) = some b) (st d : Byte) :
    exec (.evDataAckW st d) s = .next ((((s.latch st d).setRequest r q.advance).load b).command .transmit) := by
  rw [exec_evDataAckW_more hs hmore, sendByteAtCursor_of_read (q := q.advance) hb]
  rfl

theorem exec_evDataAckW_last (hs : s.Serving r q) (hone : q.remaining = 1) (st d : Byte) :
    exec (.evDataAckW st d) s = .next (((s.latch st d).setRequest r q.advance).completion r q.advance) := by
  rw [exec_evDataAckW_serving hs, if_neg (by omega), if_neg (by rw [Request.advance_wantsMore, hone]; decide)]
  rfl

theorem exec_evAddrAckW_empty (hs : s.Serving r q) (hzero : q.remaining = 0) (st d : Byte) :
    exec (.evAddrAckW st d) s = .next ((s.latch st d).completion r q) := by
  rw [exec_evAddrAckW_serving hs, if_pos hzero]
  rfl

/-! ### Receiving bytes (R214, R216, R217) -/

theorem callbackIf_congr {q q' : Request} (h : q'.hasCb = q.hasCb) (r : ReqId) (p : Option Byte) :
    callbackIf q' r p = callbackIf q r p := by
  rw [callbackIf, h, callbackIf]

/-- The state after a receive: `q'` is the record then, the draw is counted, and the callback has fired (R214, R216, R217). -/
def State.received (s : State) (r : ReqId) (q q' : Request) (d : Byte) : State :=
  { s.setRequest r q' with draws := q.drawsAfter s.draws, trace := s.trace ++ callbackIf q r (some d) }

theorem State.rxStore_rxCallback (t : State) (r : ReqId) (q : Request) (d : Byte) :
    (t.rxStore r q d).rxCallback r q d = t.received r q (q.rxStore t.draws d) d := by
  rw [State.rxCallback_eq]
  rfl

theorem State.rxStore_setRequest_rxCallback (t : State) (r : ReqId) (q : Request) {q' : Request} (h : q'.hasCb = q.hasCb)
    (d : Byte) : ((t.rxStore r q d).setRequest r q').rxCallback r q' d = t.received r q q' d := by
  rw [State.rxCallback_eq, callbackIf_congr h]
  simp only [State.rxStore, State.setRequest, State.received, Table.put_put]

/-- EV_DATA_ACK_R with a byte to receive (R214, R215). -/
theorem exec_evDataAckR_receives (hs : s.Serving r q) (hpos : 0 < q.remaining) (st d : Byte) :
    ∃ v, q.MayHold d v ∧ exec (.evDataAckR st d) s =
      .next (((s.latch st d).received r q { q with buf := q.bufWith v, remaining := q.remaining - 1, cursor := q.cursor + 1 }
        d).command (if 1 < q.remaining then .ack else .nack)) := by
  obtain ⟨v, hv, hstore⟩ := q.rxStore_eq s.draws d
  refine ⟨v, hv, ?_⟩
  have hadv : (q.rxStore s.draws d).advance =
      { q with buf := q.bufWith v, remaining := q.remaining - 1, cursor := q.cursor + 1 } := by
    rw [hstore]
    rfl
  have hanswer : ackOrNack (q.rxStore s.draws d).advance = if 1 < q.remaining then Command.ack else .nack := by
    rw [ackOrNack, Request.advance_wantsMore, hstore]
    simp only [decide_eq_true_eq]
  dsimp only [exec, execEvDataAckR]
  rw [event_serving hs, if_neg (Nat.pos_iff_ne_zero.mp hpos)]
  dsimp only [State.latch_dataReg, State.latch_draws]
  rw [hanswer, hadv, State.rxStore_setRequest_rxCallback (q' := { q with
    buf := q.bufWith v, remaining := q.remaining - 1, cursor := q.cursor + 1 }) _ r q rfl d]
  rfl

/-- EV_DATA_NACK_R (R216). -/
theorem exec_evDataNackR_serving (hs : s.Serving r q) (st d : Byte) :
    ∃ v, q.MayHold d v ∧ exec (.evDataNackR st d) s =
      .next (((s.latch st d).received r q { q with buf := q.bufWith v } d).rxCompletion r { q with buf := q.bufWith v }) := by
  obtain ⟨v, hv, hstore⟩ := q.rxStore_eq s.draws d
  refine ⟨v, hv, ?_⟩
  dsimp only [exec, execEvDataNackR]
  rw [event_serving hs]
  dsimp only [State.latch_dataReg, State.latch_draws]
  rw [State.rxStore_rxCallback, State.latch_draws, hstore]
  rfl

end Serving

/-! ### Faults of the data arms (R190, R194, R214) -/

/-- Settles O29: the count is looked at first, then the buffer's end. -/
theorem dataArmsFault : Obligations.DataArmsFault := by
  intro s r q st d hs
  refine ⟨fun hzero => ⟨?_, exec_evDataAckR_underflow hs hzero st d⟩, fun hpos hlen => ?_, fun hmore hlen => ?_⟩
  · rw [exec_evDataAckW_serving hs, if_pos hzero]
    rfl
  · rw [exec_evAddrAckW_serving hs, if_neg (Nat.pos_iff_ne_zero.mp hpos), sendByteAtCursor_beyond hlen]
    rfl
  · rw [exec_evDataAckW_more hs hmore, sendByteAtCursor_beyond (q := q.advance) hlen]
    rfl

/-! ### Results that keep the request current -/

/-- Settles O35. The latch writes registers only, and the send adds its two actions. -/
theorem addrAckSendsFirstByte : Obligations.AddrAckSendsFirstByte := by
  intro s r q b st d hs hpos hb
  refine ⟨_, exec_evAddrAckW_sends hs hpos hb st d, ?_⟩
  rw [State.load_command_transmit]
  rfl

/-- Settles O36: as for the first byte, after the counts have moved on. -/
theorem dataAckSendsNextByte : Obligations.DataAckSendsNextByte := by
  intro s r q b st d hs hmore hb
  refine ⟨_, exec_evDataAckW_sends hs hmore hb st d, ?_⟩
  rw [State.load_command_transmit]
  rfl

/-- Settles O39: the latch and the ACK. -/
theorem addrAckAsksForByte : Obligations.AddrAckAsksForByte := by
  intro s r q st d hs hpos
  refine ⟨_, exec_evAddrAckR_serving hs st d, ?_⟩
  rw [if_neg (Nat.pos_iff_ne_zero.mp hpos)]
  rfl

/-- Settles O40: the receive, and the answer, which arms either way. -/
theorem dataAckReceives : Obligations.DataAckReceives := by
  intro s r q st d hs hpos
  obtain ⟨v, hv, hexec⟩ := exec_evDataAckR_receives hs hpos st d
  refine ⟨_, v, hv, hexec, ?_⟩
  split <;> rfl

/-! ### Results that end the request -/

/-- Completion is the callback, and then the end of the request with its callback cleared (R235, R236). -/
theorem State.completion_eq_endRequest (s : State) (r : ReqId) (q : Request) :
    s.completion r q =
      (({ s with trace := s.trace ++ callbackIf q r none } : State).endRequest r { q with hasCb := false } .ok).drainOrIdle
        .tx :=
  State.completion_eq s r q

/-- Completion on an empty queue (R233, R235). -/
theorem State.completion_idle {s : State} (hqueue : s.queue = []) (r : ReqId) (q : Request) :
    s.completion r q = { s with
      armed := false, busState := .idle, current := none, controlReg := 0x95
      reqs := Table.put s.reqs r { q with hasCb := false, life := .released }
      trace := s.trace ++ callbackIf q r none ++ [.release r .ok, .cmd .stop] } := by
  rw [State.completion_eq_endRequest,
    State.endRequest_drainOrIdle_idle (s := { s with trace := s.trace ++ callbackIf q r none }) hqueue]
  rfl

/-- Completion with another request up next (R233, R235). -/
theorem State.completion_next {s : State} {r n : ReqId} {rest : List ReqId} {qn : Request} (hnext : s.NextUp r n rest qn)
    (q : Request) :
    s.completion r q = { s with
      armed := true, current := some n, queue := rest, controlReg := 0xB5
      reqs := Table.put (Table.put s.reqs r { q with hasCb := false, life := .released }) n { qn with life := .current }
      trace := s.trace ++ callbackIf q r none ++ [.release r .ok, .cmd .stopStart] } := by
  rw [State.completion_eq_endRequest,
    State.endRequest_drainOrIdle_next (s := { s with trace := s.trace ++ callbackIf q r none }) hnext]
  rfl

/-- The table `R` is `T` but for what stands under the key `r`. -/
def Table.SameBut {α : Type} (r : Nat) (R T : List (Nat × α)) : Prop :=
  (∀ p, Table.put R r p = Table.put T r p) ∧ ∀ x, x ≠ r → Table.get R x = Table.get T x

theorem Table.SameBut.refl {α : Type} (r : Nat) (T : List (Nat × α)) : Table.SameBut r T T :=
  ⟨fun _ => rfl, fun _ _ => rfl⟩

theorem Table.SameBut.put {α : Type} (r : Nat) (T : List (Nat × α)) (p : α) : Table.SameBut r (Table.put T r p) T :=
  ⟨fun _ => Table.put_put T r p _, fun _ hx => Table.get_put_other T hx p⟩

/-- The two events that complete a write run Completion with the record `q'` on the latched state, whose table may already hold
the advanced record. -/
theorem exec_write_completes {s : State} {r : ReqId} {q q' : Request} {st d : Byte} {i : Instr} (hs : s.Serving r q)
    (hi : (i = .evDataAckW st d ∧ q.remaining = 1 ∧ q' = { q with remaining := 0, cursor := q.cursor + 1 }) ∨
      (i = .evAddrAckW st d ∧ q.remaining = 0 ∧ q' = q)) :
    ∃ R, Table.SameBut r R s.reqs ∧ exec i s = .next (({ s.latch st d with reqs := R } : State).completion r q') := by
  obtain ⟨rfl, hone, rfl⟩ | ⟨rfl, hzero, rfl⟩ := hi
  · have hadv : q.advance = { q with remaining := 0, cursor := q.cursor + 1 } := by rw [Request.advance, hone]
    rw [← hadv]
    exact ⟨_, .put r s.reqs q.advance, exec_evDataAckW_last hs hone st d⟩
  · exact ⟨s.reqs, .refl r s.reqs, exec_evAddrAckW_empty hs hzero st d⟩

/-- Settles O37: Completion overwrites the record that the last data ACK advanced. -/
theorem writesComplete : Obligations.WritesComplete := by
  intro s r q q' st d i hs hi
  have hcb : callbackIf q r none = callbackIf q' r none := by
    obtain ⟨-, -, rfl⟩ | ⟨-, -, rfl⟩ := hi <;> rfl
  obtain ⟨R, ⟨hput, hget⟩, hexec⟩ := exec_write_completes hs hi
  refine ⟨_, hexec, fun hqueue => ?_, fun n rest qn hnext => ?_⟩
  · have hlatched : ({ s.latch st d with reqs := R } : State).queue = [] := hqueue
    rw [State.completion_idle hlatched, hput, hcb]
    rfl
  · obtain ⟨hqueue, hne, hn⟩ := hnext
    have hlatched : ({ s.latch st d with reqs := R } : State).NextUp r n rest qn := ⟨hqueue, hne, (hget n hne).trans hn⟩
    rw [State.completion_next hlatched, hput, hcb]
    rfl

/-- The two events that complete a read run RX-completion on the latched state, after the receive if there is one. -/
theorem exec_read_completes {s : State} {r : ReqId} {q : Request} {st d : Byte} {i : Instr} {cb : List Action}
    (hs : s.Serving r q)
    (hi : (i = .evDataNackR st d ∧ cb = callbackIf q r (some d)) ∨ (i = .evAddrAckR st d ∧ q.remaining = 0 ∧ cb = [])) :
    ∃ R n buf, Table.SameBut r R s.reqs ∧
      exec i s = .next (({ s.latch st d with reqs := R, draws := n, trace := s.trace ++ cb } : State).rxCompletion r
        { q with buf := buf }) ∧
      ((i = .evDataNackR st d ∧ ∃ v, q.MayHold d v ∧ buf = q.bufWith v) ∨
        (i = .evAddrAckR st d ∧ buf = q.buf ∧ n = s.draws)) := by
  obtain ⟨rfl, rfl⟩ | ⟨rfl, hzero, rfl⟩ := hi
  · obtain ⟨v, hv, hexec⟩ := exec_evDataNackR_serving hs st d
    exact ⟨_, _, q.bufWith v, .put r s.reqs _, hexec, .inl ⟨rfl, v, hv, rfl⟩⟩
  · refine ⟨s.reqs, s.draws, q.buf, .refl r s.reqs, ?_, .inr ⟨rfl, rfl, rfl⟩⟩
    rw [exec_evAddrAckR_serving hs, if_pos hzero, List.append_nil]
    rfl

/-- Settles O41: RX-completion overwrites the record that the receive stored. -/
theorem readsComplete : Obligations.ReadsComplete := by
  intro s r q st d i cb hs hi
  obtain ⟨R, n, buf, ⟨hput, hget⟩, hexec, hbuf⟩ := exec_read_completes hs hi
  refine ⟨_, buf, hexec, ?_, fun hqueue => ?_, fun m rest qm hnext => ?_⟩
  · simpa only [State.rxCompletion, State.drainOrIdle_draws, State.endRequest_draws] using hbuf
  · have hlatched : ({ s.latch st d with reqs := R, draws := n, trace := s.trace ++ cb } : State).queue = [] := hqueue
    rw [State.rxCompletion, State.endRequest_drainOrIdle_idle hlatched, hput]
    rfl
  · obtain ⟨hqueue, hne, hm⟩ := hnext
    have hlatched : ({ s.latch st d with reqs := R, draws := n, trace := s.trace ++ cb } : State).NextUp r m rest qm :=
      ⟨hqueue, hne, (hget m hne).trans hm⟩
    rw [State.rxCompletion, State.endRequest_drainOrIdle_next hlatched, hput]
    rfl

end Sys2Proof.Machine

/-! PROOFS. Whole transfers: a write of N bytes and a read of N + 1 bytes (R193, R213). -/

namespace Sys2Proof.Machine

/-! ### What the end of a transfer leaves in the trace and in the request's record -/

/-- A request that is not the next one keeps the record it was released with. -/
theorem State.endRequest_drainOrIdle_request {s : State} {r : ReqId} (h : s.queue.head? ≠ some r) (q : Request) (o : Tag)
    (m : StopMode) : ((s.endRequest r q o).drainOrIdle m).request r = some { q with life := .released } := by
  rw [State.request_drainOrIdle, State.endRequest_queue, if_neg h]
  exact State.request_setRequest_same _ _ _

/-- What an event inside a transfer leaves: the request, whose record is now `q'`, is still served, the actions `acts` are
emitted, and the queue waits. -/
structure Advances (s : State) (acts : List Action) (r : ReqId) (q' : Request) (t : State) : Prop where
  serving : t.Serving r q'
  trace : t.trace = s.trace ++ acts
  queue : t.queue = s.queue

theorem State.Serving.congr {s t : State} {r : ReqId} {q q' : Request} (h : s.Serving r q) (hfault : t.fault = s.fault)
    (hrefused : t.refused = s.refused) (hcur : t.current = s.current) (hq : Table.get t.reqs r = some q') :
    t.Serving r q' :=
  ⟨⟨hfault.trans h.1.1, hrefused.trans h.1.2⟩, hcur.trans h.2.1, hq⟩

section Advances

variable {s : State} {r : ReqId} {q : Request}

theorem exec_evStart_advances {dev : Device} (hs : s.Serving r q) (hdev : s.device q.device = some dev) (st d : Byte) :
    ∃ t, exec (.evStart st d) s = .next t ∧ Advances s [.load (addrByte dev.addr q.dir), .cmd .transmit] r q t := by
  have hexec := exec_startClass_serving (i := .evStart st d) (st := st) (d := d) (.inl rfl) hs hdev
  have hq : Table.get s.reqs r = some q := hs.2.2
  exact ⟨_, hexec, hs.congr (by simp) (by simp) (by simp) (by simp [hq]), by simp, by simp⟩

theorem exec_evAddrAckW_advances {b : Byte} (hs : s.Serving r q) (hpos : 0 < q.remaining)
    (hb : q.buf.read q.cursor = some b) (st d : Byte) :
    ∃ t, exec (.evAddrAckW st d) s = .next t ∧ Advances s [Action.load b, .cmd .transmit] r q t := by
  have hq : Table.get s.reqs r = some q := hs.2.2
  exact ⟨_, exec_evAddrAckW_sends hs hpos hb st d, hs.congr (by simp) (by simp) (by simp) (by simp [hq]), by simp, by simp⟩

theorem exec_evDataAckW_advances {b : Byte} (hs : s.Serving r q) (hmore : 1 < q.remaining)
    (hb : q.buf.read (q.cursor + 1) = some b) (st d : Byte) :
    ∃ t, exec (.evDataAckW st d) s = .next t ∧ Advances s [Action.load b, .cmd .transmit] r q.advance t :=
  ⟨_, exec_evDataAckW_sends hs hmore hb st d, hs.congr (by simp) (by simp) (by simp) (by simp), by simp, by simp⟩

theorem exec_evAddrAckR_advances (hs : s.Serving r q) (hpos : 0 < q.remaining) (st d : Byte) :
    ∃ t, exec (.evAddrAckR st d) s = .next t ∧ Advances s [Action.cmd .ack] r q t := by
  have hexec := exec_evAddrAckR_serving hs st d
  have hq : Table.get s.reqs r = some q := hs.2.2
  rw [if_neg (Nat.pos_iff_ne_zero.mp hpos)] at hexec
  exact ⟨_, hexec, hs.congr (by simp) (by simp) (by simp) (by simp [hq]), by simp, by simp⟩

theorem exec_evDataAckR_advances (hs : s.Serving r q) (hpos : 0 < q.remaining) (st d : Byte) :
    ∃ t buf, exec (.evDataAckR st d) s = .next t ∧
      Advances s (callbackIf q r (some d) ++ [Action.cmd (if 1 < q.remaining then .ack else .nack)]) r
        { q with buf := buf, remaining := q.remaining - 1, cursor := q.cursor + 1 } t := by
  obtain ⟨v, -, hexec⟩ := exec_evDataAckR_receives hs hpos st d
  exact ⟨_, q.bufWith v, hexec,
    hs.congr (by simp [State.received]) (by simp [State.received]) (by simp [State.received]) (by simp [State.received]),
    by simp [State.received], by simp [State.received]⟩

end Advances

/-! ### Writes (R193) -/

/-- The last data ACK of a write completes it. -/
theorem exec_lastDataAck {s : State} {r : ReqId} {q : Request} (hs : s.Serving r q) (hone : q.remaining = 1)
    (hhead : s.queue.head? ≠ some r) (st d : Byte) :
    ∃ t, exec (.evDataAckW st d) s = .next t ∧
      t.trace = s.trace ++ callbackIf q r none ++ [Action.release r .ok, .cmd (if s.queue = [] then .stop else .stopStart)] ∧
      t.request r = some { q with cursor := q.cursor + 1, remaining := 0, hasCb := false, life := .released } := by
  refine ⟨_, exec_evDataAckW_last hs hone st d, ?_, ?_⟩ <;> rw [State.completion_eq_endRequest]
  · rw [State.endRequest_drainOrIdle_trace]
    rfl
  · rw [State.endRequest_drainOrIdle_request (by exact hhead), Request.advance, hone]

/-- The data ACKs of a write whose first byte is on its way: the other `bytes` are sent in order, and the request completes. -/
theorem execAll_dataAcks (bytes : List Byte) (st d : Byte) {s : State} {r : ReqId} {q : Request} (hs : s.Serving r q)
    (hlen : q.remaining = bytes.length + 1)
    (hread : ∀ k, k < bytes.length → q.buf.read (q.cursor + 1 + k) = bytes[k]?) (hhead : s.queue.head? ≠ some r) :
    ∃ t, execAll (List.replicate (bytes.length + 1) (.evDataAckW st d)) s = .next t ∧
      t.trace = s.trace ++ bytes.flatMap (fun b => [Action.load b, .cmd .transmit]) ++ callbackIf q r none ++
        [Action.release r .ok, .cmd (if s.queue = [] then .stop else .stopStart)] ∧
      t.request r = some { q with
        cursor := q.cursor + (bytes.length + 1), remaining := 0, hasCb := false, life := .released } := by
  induction bytes generalizing s q with
  | nil =>
    obtain ⟨t, hexec, htrace, hreq⟩ := exec_lastDataAck hs hlen hhead st d
    exact ⟨t, execAll_cons hexec [], by rw [htrace, List.flatMap_nil, List.append_nil], hreq⟩
  | cons b bytes ih =>
    have hmore : 1 < q.remaining := by rw [hlen, List.length_cons]; omega
    obtain ⟨u, hexec, hu⟩ := exec_evDataAckW_advances hs hmore (hread 0 (Nat.succ_pos _)) st d
    have hleft : q.advance.remaining = bytes.length + 1 := by rw [Request.advance, hlen]; rfl
    have hnext : ∀ k, k < bytes.length → q.advance.buf.read (q.advance.cursor + 1 + k) = bytes[k]? := fun k hk => by
      have hk' := hread (k + 1) (Nat.succ_lt_succ hk)
      rwa [List.getElem?_cons_succ, Nat.add_comm k, ← Nat.add_assoc] at hk'
    obtain ⟨t, ht, htrace, hreq⟩ := ih hu.serving hleft hnext (by rwa [hu.queue])
    refine ⟨t, (execAll_cons hexec _).trans ht, ?_, ?_⟩
    · rw [htrace, hu.trace, hu.queue, List.flatMap_cons, ← List.append_assoc s.trace]
      rfl
    · have hcursor : q.advance.cursor + (bytes.length + 1) = q.cursor + ((b :: bytes).length + 1) := by
        show q.cursor + 1 + (bytes.length + 1) = q.cursor + (bytes.length + 1 + 1)
        omega
      rw [hreq, hcursor]
      rfl

/-- Settles O59: the address, the first byte, and then the data ACKs. -/
theorem writeTransferShape : Obligations.WriteTransferShape := by
  intro s r q dev bytes st d hs hdev hlen hpos hread hhead
  obtain ⟨b, bytes, rfl⟩ := List.exists_cons_of_length_pos (hlen ▸ hpos)
  obtain ⟨u, hstart, hu⟩ := exec_evStart_advances hs hdev st d
  obtain ⟨v, hfirst, hv⟩ := exec_evAddrAckW_advances hu.serving hpos (hread 0 (Nat.succ_pos _)) st d
  have hrest : ∀ k, k < bytes.length → q.buf.read (q.cursor + 1 + k) = bytes[k]? := fun k hk => by
    have hk' := hread (k + 1) (Nat.succ_lt_succ hk)
    rwa [List.getElem?_cons_succ, Nat.add_comm k, ← Nat.add_assoc] at hk'
  obtain ⟨t, ht, htrace, hreq⟩ :=
    execAll_dataAcks bytes st d hv.serving hlen.symm hrest (by rwa [hv.queue, hu.queue])
  refine ⟨t, (execAll_cons hstart _).trans ((execAll_cons hfirst _).trans ht), ?_, hreq⟩
  rw [htrace, hv.trace, hu.trace, hv.queue, hu.queue, List.flatMap_cons, ← List.append_assoc (s.trace ++ _)]

/-! ### Reads (R213) -/

/-- The last two data events of a read: the byte before the last is answered with NACK, and the last ends the request. -/
theorem execAll_lastTwo {s : State} {r : ReqId} {q : Request} (hs : s.Serving r q) (hone : q.remaining = 1)
    (hhead : s.queue.head? ≠ some r) (st lastButOne last : Byte) :
    ∃ t, execAll [.evDataAckR st lastButOne, .evDataNackR st last] s = .next t ∧
      t.trace = s.trace ++ (callbackIf q r (some lastButOne) ++ [Action.cmd .nack]) ++ callbackIf q r (some last) ++
        [Action.release r .ok, .cmd (if s.queue = [] then .stopRx else .stopStartRx)] ∧
      ∃ q', t.request r = some q' ∧ q'.cursor = q.cursor + q.remaining ∧ q'.remaining = 0 ∧ q'.hasCb = q.hasCb ∧
        q'.life = .released := by
  obtain ⟨u, buf, hexec, hu⟩ := exec_evDataAckR_advances hs (by omega) st lastButOne
  obtain ⟨v, -, hlast⟩ := exec_evDataNackR_serving hu.serving st last
  refine ⟨_, (execAll_cons hexec _).trans (execAll_cons hlast []), ?_, ?_⟩
  · rw [State.rxCompletion, State.endRequest_drainOrIdle_trace]
    show u.trace ++ callbackIf q r (some last) ++
      [Action.release r .ok, .cmd (if u.queue = [] then .stopRx else .stopStartRx)] = _
    rw [hu.trace, hu.queue, hone]
    rfl
  · have hhead' : u.queue.head? ≠ some r := by rwa [hu.queue]
    refine ⟨_, State.endRequest_drainOrIdle_request (by exact hhead') _ _ _, ?_, ?_, rfl, rfl⟩
    · show q.cursor + 1 = _
      rw [hone]
    · show q.remaining - 1 = 0
      rw [hone]

/-- The data events of a read: each of the `first` bytes is answered with ACK, and the last two end it. -/
theorem execAll_receives (first : List Byte) (st lastButOne last : Byte) {s : State} {r : ReqId} {q : Request}
    (hs : s.Serving r q) (hlen : q.remaining = first.length + 1) (hhead : s.queue.head? ≠ some r) :
    ∃ t, execAll (first.map (.evDataAckR st) ++ [.evDataAckR st lastButOne, .evDataNackR st last]) s = .next t ∧
      t.trace = s.trace ++ first.flatMap (fun b => callbackIf q r (some b) ++ [Action.cmd .ack]) ++
        (callbackIf q r (some lastButOne) ++ [Action.cmd .nack]) ++ callbackIf q r (some last) ++
        [Action.release r .ok, .cmd (if s.queue = [] then .stopRx else .stopStartRx)] ∧
      ∃ q', t.request r = some q' ∧ q'.cursor = q.cursor + q.remaining ∧ q'.remaining = 0 ∧ q'.hasCb = q.hasCb ∧
        q'.life = .released := by
  induction first generalizing s q with
  | nil =>
    rw [List.flatMap_nil, List.append_nil]
    exact execAll_lastTwo hs hlen hhead st lastButOne last
  | cons b first ih =>
    have hmore : 1 < q.remaining := by rw [hlen, List.length_cons]; omega
    obtain ⟨u, buf, hexec, hu⟩ := exec_evDataAckR_advances hs (by omega) st b
    have hleft : q.remaining - 1 = first.length + 1 := by rw [hlen]; rfl
    obtain ⟨t, ht, htrace, q', hreq, hcur, hrem, hcb, hlife⟩ := ih hu.serving hleft (by rwa [hu.queue])
    refine ⟨t, (execAll_cons hexec _).trans ht, ?_, q', hreq, ?_, hrem, hcb, hlife⟩
    · rw [htrace, hu.trace, hu.queue, if_pos hmore, List.flatMap_cons,
        ← List.append_assoc s.trace (callbackIf q r (some b) ++ [Action.cmd .ack])]
      rfl
    · rw [hcur]
      show q.cursor + 1 + (q.remaining - 1) = _
      omega

/-- Settles O60: the ACK after the address, and then the data events. -/
theorem readTransferShape : Obligations.ReadTransferShape := by
  intro s r q first lastButOne last st d hs hlen hhead
  obtain ⟨u, hexec, hu⟩ := exec_evAddrAckR_advances hs (by omega) st d
  obtain ⟨t, ht, htrace, hreq⟩ := execAll_receives first st lastButOne last hu.serving hlen (by rwa [hu.queue])
  refine ⟨t, (execAll_cons hexec _).trans ht, ?_, hreq⟩
  rw [htrace, hu.trace, hu.queue]

end Sys2Proof.Machine
